-- ==== Sys2Proof/Word.lean ====
section
/-! DEFINITION. The widths of the values the block works on (00_scope.md R10, R11): bytes, 32-bit register words,
the 64-bit accumulator, and the 6-bit byte offset of the 64-byte register window. -/

namespace Sys2Proof

/-- One byte of a CRC message (41_crc64.md R122). -/
abbrev Byte := BitVec 8

/-- A register word; every access moves all 32 bits (20_memory.md R63). -/
abbrev Word := BitVec 32

/-- The width of the CRC accumulator and of a table entry (10_state.md R33, R40). -/
abbrev DWord := BitVec 64

/-- A byte offset in the 64-byte register window (20_memory.md R60). -/
abbrev Offset := BitVec 6

end Sys2Proof
end

