-- ==== Sys2Proof/Syntax.lean ====
section
/-! DEFINITION. The seven commands (30_encoding.md R84, spec/opcode_table.json), one constructor per row. A command
has no operand field: its operands are fixed registers (R82). Also the fields of a command word (R80). -/

namespace Sys2Proof

/-- The commands of the opcode map (30_encoding.md R84). -/
inductive Instr where
  /-- NOP, opcode 0x00 (42_control.md R150). -/
  | nop
  /-- CRC_INIT, opcode 0x01 (41_crc64.md R125). -/
  | crcInit
  /-- CRC_UPD8, opcode 0x02 (41_crc64.md R126). -/
  | crcUpd8
  /-- CRC_UPD16, opcode 0x03 (41_crc64.md R127). -/
  | crcUpd16
  /-- CRC_UPD32, opcode 0x04 (41_crc64.md R128). -/
  | crcUpd32
  /-- TEA_ENC, opcode 0x10 (40_tea.md R103). -/
  | teaEnc
  /-- TEA_DEC, opcode 0x11 (40_tea.md R104). -/
  | teaDec
  deriving DecidableEq, Repr

/-- The two fields of the one command format (30_encoding.md R80). -/
structure CommandWord where
  /-- OPCODE, bits 7:0. -/
  opcode : Byte
  /-- RSVD, bits 31:8, which must be 0. -/
  rsvd : BitVec 24
  deriving DecidableEq, Repr

end Sys2Proof
end

