-- ==== Sys2Proof/WellFormed.lean ====
section
/-! DEFINITION. Which command words are legal (30_encoding.md R81), check by check, and that a command has no
operand field that could be ill-formed (R82). -/

namespace Sys2Proof

/-- RSVD = 0 (30_encoding.md R80, R81). -/
def CommandWord.reservedZero (c : CommandWord) : Bool := c.rsvd == 0

/-- OPCODE is one of the seven of 30_encoding.md R84. -/
def CommandWord.opcodeAssigned (c : CommandWord) : Bool :=
  [0x00, 0x01, 0x02, 0x03, 0x04, 0x10, 0x11].contains c.opcode

/-- A command word is legal when both checks pass (30_encoding.md R81). -/
def CommandWord.wf (c : CommandWord) : Bool := c.reservedZero && c.opcodeAssigned

/-- Commands carry no immediate, register number or mode field (30_encoding.md R80), so every command term is
well-formed. -/
def Instr.wf : Instr → Bool
  | .nop => true
  | .crcInit => true
  | .crcUpd8 => true
  | .crcUpd16 => true
  | .crcUpd32 => true
  | .teaEnc => true
  | .teaDec => true

end Sys2Proof
end

