-- ==== Sys2Proof/Decode.lean ====
section
/-! DEFINITION. Decoding a command word (30_encoding.md R80, R81, R84, R85), total, with the reason a word is illegal
by name; the encoder; and the decoder in the host's numbering of bits. -/

namespace Sys2Proof

/-- Why a command word is illegal (30_encoding.md R85). -/
inductive IllegalWord where
  /-- `w[31:8]` is not 0. -/
  | reservedBitsSet (rsvd : BitVec 24)
  /-- RSVD is 0 and OPCODE is one of 0x05 to 0x0F or 0x12 to 0xFF. -/
  | unassignedOpcode (opcode : Byte)
  deriving DecidableEq, Repr

/-- The fields of a command word (30_encoding.md R80). -/
def fieldsOf (w : Word) : CommandWord := ⟨w.extractLsb' 0 8, w.extractLsb' 8 24⟩

/-- The opcode map (30_encoding.md R84). -/
def opcodeMap : List (Byte × Instr) :=
  [(0x00, .nop), (0x01, .crcInit), (0x02, .crcUpd8), (0x03, .crcUpd16), (0x04, .crcUpd32), (0x10, .teaEnc),
   (0x11, .teaDec)]

/-- The verdict on the two fields (30_encoding.md R81): RSVD first, then the opcode. -/
def decodeFields (c : CommandWord) : Except IllegalWord Instr :=
  match c.rsvd == 0, opcodeMap.lookup c.opcode with
  | true, some i => .ok i
  | true, none => .error (.unassignedOpcode c.opcode)
  | false, _ => .error (.reservedBitsSet c.rsvd)

/-- Decode gives every 32-bit word exactly one verdict (30_encoding.md R81). -/
def decode (w : Word) : Except IllegalWord Instr := decodeFields (fieldsOf w)

/-- The OPCODE of a command (30_encoding.md R84). -/
def opcodeOf : Instr → Byte
  | .nop => 0x00
  | .crcInit => 0x01
  | .crcUpd8 => 0x02
  | .crcUpd16 => 0x03
  | .crcUpd32 => 0x04
  | .teaEnc => 0x10
  | .teaDec => 0x11

/-- The command word of a command: its opcode under 24 zero bits (30_encoding.md R80, R84). -/
def encode (i : Instr) : Word := (0 : BitVec 24) ++ opcodeOf i

/-- The command in a word of `nbits` bits whose value is `w`. A command is exactly one 32-bit write (R86), so no
longer word is one. DESIGN CHOICE: a word of fewer than 32 bits stands for the 32-bit write with zeros above it
(log 16). -/
def decodeTableWord (nbits w : Nat) : Option Instr :=
  if nbits ≤ 32 then
    match decode (BitVec.ofNat 32 (w % 2 ^ nbits)) with
    | .ok i => some i
    | .error _ => none
  else none

end Sys2Proof
end

