-- ==== Sys2Proof/Config.lean ====
section
/-! DEFINITION. The open parameters of the block (00_scope.md R9) and its one open value (60_exceptions.md R170):
constants with no body, so that no proof can rest on what they are. -/

namespace Sys2Proof

/-- How a host driver packs bytes into TEA words (92_eei_decisions.md D16); the block never sees bytes (R69). -/
inductive ByteOrder where
  | big
  | little
  deriving DecidableEq, Repr, Inhabited

/-- BLOCK_ID, the constant the ID register reads as (10_state.md R22). Log 5. -/
opaque Config.blockId : Word

/-- BLOCK_BASE, where the platform puts the register window (20_memory.md R61). Log 6. -/
opaque Config.blockBase : Nat

/-- The value the n-th read of a result register while busy returns (60_exceptions.md R170): a free value, one for
each n. DESIGN CHOICE: it depends on the count of draws alone and not on the state of the block, where the spec allows
any dependence (a partly computed value); unsafe for claims that compare two runs. Log 4. -/
opaque Config.busyRead : Nat → Word

/-- How many cycles a command takes beyond its first. Log 12. -/
opaque Config.latencyBeyondFirst : Instr → Nat

/-- LAT_<mnemonic>: finite and at least 1 (00_scope.md R9, 70_reset_and_hazards.md R203). -/
def Config.latency (i : Instr) : Nat := Config.latencyBeyondFirst i + 1

/-- TEA_BYTE_ORDER, of the host driver only (00_scope.md R9). Log 17. -/
opaque Config.teaByteOrder : ByteOrder

end Sys2Proof
end

