-- ==== Sys2Proof/Machine/State.lean ====
section
/-! DEFINITION. The architectural state of the block (10_state.md R20), the value on its read-data port, the inputs
still to come, and the state after reset (70_reset_and_hazards.md R191). Plain data. -/

namespace Sys2Proof.Machine

/-- CTRL's two bits (10_state.md R23); CTRL[31:2] has no storage. -/
structure Ctrl where
  /-- Bit 0. -/
  doneIe : Bool
  /-- Bit 1. -/
  errIe : Bool
  deriving DecidableEq, Repr

/-- STATUS's four bits (10_state.md R25); STATUS[31:4] has no storage. -/
structure Status where
  /-- Bit 0, read-only (R26). -/
  busy : Bool
  /-- Bit 1, write 1 to clear (R27). -/
  done : Bool
  /-- Bit 2, write 1 to clear, sticky (R28). -/
  errIllegal : Bool
  /-- Bit 3, write 1 to clear, sticky (R29). -/
  errBusy : Bool
  deriving DecidableEq, Repr

/-- KEY0 to KEY3, the four subkeys k0 to k3 (10_state.md R34). -/
structure TeaKey where
  k0 : Word
  k1 : Word
  k2 : Word
  k3 : Word
  deriving DecidableEq, Repr

/-- TEA_V0 and TEA_V1, the two words of one block (10_state.md R35). -/
structure TeaBlock where
  v0 : Word
  v1 : Word
  deriving DecidableEq, Repr

/-- The 16 word slots of the register window (10_state.md R21). -/
inductive Slot where
  | id | ctrl | status | cmd | arg | reserved14 | crcLo | crcHi
  | key0 | key1 | key2 | key3 | teaV0 | teaV1 | reserved38 | reserved3C
  deriving DecidableEq, Repr

/-- A host access at a byte offset of the window (00_scope.md R14). -/
inductive Access where
  /-- `RegRead(off)`. -/
  | read (off : Offset)
  /-- `RegWrite(off, v)`. -/
  | write (off : Offset) (v : Word)
  deriving DecidableEq, Repr

/-- What an access on the platform's bus does. -/
inductive BusOp where
  | read
  | write (v : Word)
  deriving DecidableEq, Repr

/-- What the outside world can do to the block in one step. -/
inductive HostEvent where
  /-- A cycle with `sel` = 1 and `rst` = 0 (20_memory.md R76). -/
  | access (a : Access)
  /-- An access on the platform's bus at a system address; the platform's decoder selects the block or not
  (20_memory.md R61). Log 6. -/
  | bus (addr : Nat) (op : BusOp)
  /-- A clock edge with `rst` = 1, and the access made in that cycle, if any (70_reset_and_hazards.md R190). -/
  | reset (during : Option Access)
  deriving DecidableEq, Repr

/-- Whose turn it is (20_memory.md R71). -/
inductive Turn where
  /-- The engine may complete the command in flight (30_encoding.md R91). -/
  | engine
  /-- An event from outside. -/
  | host (e : HostEvent)
  deriving DecidableEq, Repr

/-- The state of the block. -/
structure State where
  /-- CTRL (10_state.md R23). -/
  ctrl : Ctrl
  /-- STATUS (10_state.md R25). -/
  status : Status
  /-- ARG (10_state.md R32). -/
  arg : Word
  /-- ACC, seen as CRC_LO and CRC_HI (10_state.md R33). -/
  acc : DWord
  /-- KEY0 to KEY3 (10_state.md R34). -/
  key : TeaKey
  /-- TEA_V0 and TEA_V1 (10_state.md R35). -/
  block : TeaBlock
  /-- INFLIGHT: the accepted command whose completion has not happened yet (10_state.md R39). Log 14. -/
  inflight : Option Instr
  /-- What the latest step drove on the `rdata` port (20_memory.md R76); 0 after a step that read nothing, which for
  the cycle of a write is a DESIGN CHOICE. Log 3. -/
  rdata : Word
  /-- The model's own: the turns still to come, the next one first. Log 1. -/
  schedule : List Turn
  /-- The model's own: how many open values have been handed out. Log 4. -/
  draws : Nat
  deriving DecidableEq, Repr

/-- Reasons to stop with a fault: there is none, because the block has no trap and no stuck state
(60_exceptions.md R160, R168; 93_implementation_defined.md, end of section 2). -/
inductive Fault where
  deriving DecidableEq, Repr

/-- Reasons to refuse a step. -/
inductive Refusal where
  /-- Raised by an arm of `exec` whose command has no meaning yet. Safe. No arm raises it. -/
  | notModelled (mnemonic : String)
  deriving DecidableEq, Repr

/-- The reset state (70_reset_and_hazards.md R191), with nothing scheduled and no open value handed out (log 1,
log 4). -/
def State.reset : State where
  ctrl := ⟨false, false⟩
  status := ⟨false, false, false, false⟩
  arg := 0x00000000
  acc := 0xFFFFFFFFFFFFFFFF
  key := ⟨0x00000000, 0x00000000, 0x00000000, 0x00000000⟩
  block := ⟨0x00000000, 0x00000000⟩
  inflight := none
  rdata := 0x00000000
  schedule := []
  draws := 0

end Sys2Proof.Machine
end

