-- ==== Sys2Proof/Machine/Flags.lean ====
section
/-! DEFINITION. CTRL and STATUS as register words, their write rules (10_state.md R23, R30), and the interrupt output
(60_exceptions.md R166). -/

namespace Sys2Proof.Machine

/-- `zext_32(ERR_IE : DONE_IE)` (10_state.md R23). -/
def ctrlWord (c : Ctrl) : Word :=
  (0 : BitVec 30) ++ BitVec.ofBool c.errIe ++ BitVec.ofBool c.doneIe

/-- A write to CTRL stores `v[1:0]` and ignores `v[31:2]` (10_state.md R23). -/
def ctrlOfWord (v : Word) : Ctrl := ⟨v.getLsbD 0, v.getLsbD 1⟩

/-- `zext_32(ERR_BUSY : ERR_ILLEGAL : DONE : BUSY)` (10_state.md R30). -/
def statusWord (st : Status) : Word :=
  (0 : BitVec 28) ++ BitVec.ofBool st.errBusy ++ BitVec.ofBool st.errIllegal ++ BitVec.ofBool st.done ++
    BitVec.ofBool st.busy

/-- A write to STATUS clears the W1C bits written as 1 (10_state.md R30). -/
def statusW1C (st : Status) (v : Word) : Status :=
  { st with
    done := st.done && !v.getLsbD 1
    errIllegal := st.errIllegal && !v.getLsbD 2
    errBusy := st.errBusy && !v.getLsbD 3 }

/-- The status of acceptance: BUSY <- 1, DONE <- 0 (30_encoding.md R90). -/
def statusAccepted (st : Status) : Status := { st with busy := true, done := false }

/-- The status of completion: BUSY <- 0, DONE <- 1 (30_encoding.md R91). -/
def statusCompleted (st : Status) : Status := { st with busy := false, done := true }

/-- The status of a rejected command word: ERR_ILLEGAL <- 1, DONE <- 1 (60_exceptions.md R162). -/
def statusIllegal (st : Status) : Status := { st with errIllegal := true, done := true }

/-- The status of a refused write while busy: ERR_BUSY <- 1 (60_exceptions.md R163). -/
def statusBusyError (st : Status) : Status := { st with errBusy := true }

/-- The interrupt output (60_exceptions.md R166); it holds no state of its own. -/
def State.irq (s : State) : Bool :=
  (s.ctrl.doneIe && s.status.done) || (s.ctrl.errIe && (s.status.errIllegal || s.status.errBusy))

end Sys2Proof.Machine
end

