-- ==== Sys2Proof/Machine/Operands.lean ====
section
/-! DEFINITION. Where operands are: the slot an offset names (10_state.md R21, 20_memory.md R61, R63), the bytes of ARG
(30_encoding.md R83), the halves of ACC (10_state.md R33) and the words of the key. -/

namespace Sys2Proof.Machine

/-- The slot of word index `off[5:2]`; `off[1:0]` does not reach the block (20_memory.md R61, R63; log 7). -/
def slotOf (off : Offset) : Slot :=
  match (off.extractLsb' 2 4).toNat with
  | 0x0 => .id
  | 0x1 => .ctrl
  | 0x2 => .status
  | 0x3 => .cmd
  | 0x4 => .arg
  | 0x5 => .reserved14
  | 0x6 => .crcLo
  | 0x7 => .crcHi
  | 0x8 => .key0
  | 0x9 => .key1
  | 0xA => .key2
  | 0xB => .key3
  | 0xC => .teaV0
  | 0xD => .teaV1
  | 0xE => .reserved38
  | _ => .reserved3C

/-- The byte offset a slot is listed at (10_state.md R21). -/
def offsetOf : Slot → Offset
  | .id => 0x00
  | .ctrl => 0x04
  | .status => 0x08
  | .cmd => 0x0C
  | .arg => 0x10
  | .reserved14 => 0x14
  | .crcLo => 0x18
  | .crcHi => 0x1C
  | .key0 => 0x20
  | .key1 => 0x24
  | .key2 => 0x28
  | .key3 => 0x2C
  | .teaV0 => 0x30
  | .teaV1 => 0x34
  | .reserved38 => 0x38
  | .reserved3C => 0x3C

/-- The busy-guarded slots (10_state.md R21, 60_exceptions.md R163). -/
def busyGuarded : Slot → Bool
  | .cmd | .arg | .crcLo | .crcHi | .key0 | .key1 | .key2 | .key3 | .teaV0 | .teaV1 => true
  | .id | .ctrl | .status | .reserved14 | .reserved38 | .reserved3C => false

/-- The slots whose value is open while busy (60_exceptions.md R170). -/
def openWhileBusy : Slot → Bool
  | .crcLo | .crcHi | .teaV0 | .teaV1 => true
  | .id | .ctrl | .status | .cmd | .arg | .reserved14 | .key0 | .key1 | .key2 | .key3 | .reserved38
  | .reserved3C => false

/-- The offset in the window of a system address, `none` where the platform's decoder does not select the block
(20_memory.md R61; log 6). -/
def windowOffset (addr : Nat) : Option Offset :=
  if Config.blockBase ≤ addr ∧ addr < Config.blockBase + 64 then
    some (BitVec.ofNat 6 (addr - Config.blockBase))
  else none

/-- `b0 = ARG[7:0]` (30_encoding.md R83). -/
def argByte0 (arg : Word) : Byte := arg.extractLsb' 0 8

/-- `b1 = ARG[15:8]` (30_encoding.md R83). -/
def argByte1 (arg : Word) : Byte := arg.extractLsb' 8 8

/-- `b2 = ARG[23:16]` (30_encoding.md R83). -/
def argByte2 (arg : Word) : Byte := arg.extractLsb' 16 8

/-- `b3 = ARG[31:24]` (30_encoding.md R83). -/
def argByte3 (arg : Word) : Byte := arg.extractLsb' 24 8

/-- CRC_LO = ACC[31:0] (10_state.md R33). -/
def accLo (acc : DWord) : Word := acc.extractLsb' 0 32

/-- CRC_HI = ACC[63:32] (10_state.md R33). -/
def accHi (acc : DWord) : Word := acc.extractLsb' 32 32

/-- ACC with ACC[31:0] replaced (10_state.md R33). -/
def withAccLo (acc : DWord) (v : Word) : DWord := accHi acc ++ v

/-- ACC with ACC[63:32] replaced (10_state.md R33). -/
def withAccHi (acc : DWord) (v : Word) : DWord := v ++ accLo acc

end Sys2Proof.Machine
end

