-- ==== Sys2Proof/Machine/Ops.lean ====
section
/-! DEFINITION. The named operations: updates of one field, acceptance and completion (30_encoding.md R90, R91), the
two error recordings (60_exceptions.md R162, R163; the block has no other exception, R160), host reads and writes
(20_memory.md R62), reset (70_reset_and_hazards.md R190, R191), and whose turn it is (20_memory.md R71). -/

namespace Sys2Proof.Machine

/-! ### Updates of one field -/

def State.setCtrl (s : State) (c : Ctrl) : State := { s with ctrl := c }
def State.setStatus (s : State) (st : Status) : State := { s with status := st }
def State.setArg (s : State) (v : Word) : State := { s with arg := v }
def State.setAcc (s : State) (a : DWord) : State := { s with acc := a }
def State.setKey (s : State) (k : TeaKey) : State := { s with key := k }
def State.setBlock (s : State) (b : TeaBlock) : State := { s with block := b }
def State.setInflight (s : State) (i : Option Instr) : State := { s with inflight := i }
def State.setRdata (s : State) (v : Word) : State := { s with rdata := v }
def State.setSchedule (s : State) (l : List Turn) : State := { s with schedule := l }
def State.setDraws (s : State) (n : Nat) : State := { s with draws := n }

/-! ### Issue, completion and errors -/

/-- Acceptance of a legal command (30_encoding.md R90). -/
def State.accept (s : State) (i : Instr) : State :=
  (s.setInflight (some i)).setStatus (statusAccepted s.status)

/-- The part of completion that every command shares: INFLIGHT <- none, BUSY <- 0, DONE <- 1 (30_encoding.md R91). -/
def State.complete (s : State) : State :=
  (s.setInflight none).setStatus (statusCompleted s.status)

/-- `raise ERR_ILLEGAL` (60_exceptions.md R162). -/
def State.raiseIllegal (s : State) : State := s.setStatus (statusIllegal s.status)

/-- `raise ERR_BUSY` (60_exceptions.md R163). -/
def State.raiseBusy (s : State) : State := s.setStatus (statusBusyError s.status)

/-- A write to CMD while idle: acceptance or rejection (30_encoding.md R89). -/
def issue (s : State) (w : Word) : State :=
  match decode w with
  | .ok i => s.accept i
  | .error _ => s.raiseIllegal

/-! ### Host accesses -/

/-- The value the read rule of a slot gives when it is not open (10_state.md R22 to R35, 20_memory.md R62). -/
def slotValue (s : State) : Slot → Word
  | .id => Config.blockId
  | .ctrl => ctrlWord s.ctrl
  | .status => statusWord s.status
  | .cmd => 0
  | .arg => s.arg
  | .reserved14 => 0
  | .crcLo => accLo s.acc
  | .crcHi => accHi s.acc
  | .key0 => 0
  | .key1 => 0
  | .key2 => 0
  | .key3 => 0
  | .teaV0 => s.block.v0
  | .teaV1 => s.block.v1
  | .reserved38 => 0
  | .reserved3C => 0

/-- The write rule of a slot when the write is not refused (10_state.md R22 to R35, 20_memory.md R62). -/
def storeSlot (s : State) (v : Word) : Slot → State
  | .id => s
  | .ctrl => s.setCtrl (ctrlOfWord v)
  | .status => s.setStatus (statusW1C s.status v)
  | .cmd => issue s v
  | .arg => s.setArg v
  | .reserved14 => s
  | .crcLo => s.setAcc (withAccLo s.acc v)
  | .crcHi => s.setAcc (withAccHi s.acc v)
  | .key0 => s.setKey { s.key with k0 := v }
  | .key1 => s.setKey { s.key with k1 := v }
  | .key2 => s.setKey { s.key with k2 := v }
  | .key3 => s.setKey { s.key with k3 := v }
  | .teaV0 => s.setBlock { s.block with v0 := v }
  | .teaV1 => s.setBlock { s.block with v1 := v }
  | .reserved38 => s
  | .reserved3C => s

/-- `RegRead(off)` (20_memory.md R62): the value on `rdata`. A result register read while busy gives a free value
(60_exceptions.md R170). DESIGN CHOICE: that value depends on the count of draws alone, so two states with equal counts
read equal words whatever their registers and slots (log 4). -/
def regRead (s : State) (off : Offset) : State :=
  if s.status.busy && openWhileBusy (slotOf off) then
    (s.setRdata (Config.busyRead s.draws)).setDraws (s.draws + 1)
  else s.setRdata (slotValue s (slotOf off))

/-- `RegWrite(off, v)` (20_memory.md R62): a busy-guarded register is not written while busy (60_exceptions.md R163,
R164). -/
def regWrite (s : State) (off : Offset) (v : Word) : State :=
  if s.status.busy && busyGuarded (slotOf off) then s.raiseBusy else storeSlot s v (slotOf off)

/-- One host access (00_scope.md R14). -/
def access (s : State) : Access → State
  | .read off => regRead s off
  | .write off v => regWrite s off v

/-- An access on the platform's bus: it reaches the block only where the address decoder selects it (20_memory.md R61;
log 6). -/
def busAccess (s : State) (addr : Nat) (op : BusOp) : State :=
  match windowOffset addr, op with
  | some off, .read => regRead s off
  | some off, .write v => regWrite s off v
  | none, _ => s

/-- A clock edge with `rst` = 1 (70_reset_and_hazards.md R190, R191): the reset state, a command in flight abandoned.
The inputs still to come and the count of open values are the model's own and stay (log 10). -/
def State.doReset (s : State) : State := (State.reset.setSchedule s.schedule).setDraws s.draws

/-- What an event from outside does. The access made in a reset cycle is ignored (70_reset_and_hazards.md R190). -/
def hostEvent (s : State) : HostEvent → State
  | .access a => access s a
  | .bus addr op => busAccess s addr op
  | .reset _ => s.doReset

/-! ### Turns -/

/-- What the next step is. -/
inductive NextStep where
  /-- The engine completes the command in flight (30_encoding.md R91). -/
  | command (i : Instr)
  /-- An event from outside. -/
  | outside (e : HostEvent)
  /-- Nothing happens: no command is in flight for the engine to complete. -/
  | quiet
  deriving DecidableEq, Repr

/-- The engine's completion step is enabled exactly when INFLIGHT is not none (30_encoding.md R91). -/
def engineTurn (s : State) : NextStep :=
  match s.inflight with
  | some i => .command i
  | none => .quiet

/-- Whose turn it is: the schedule's first entry, and the engine's when nothing is scheduled (30_encoding.md R92;
log 1). -/
def nextStep (s : State) : NextStep :=
  match s.schedule with
  | [] => engineTurn s
  | .engine :: _ => engineTurn s
  | .host e :: _ => .outside e

/-- The start of every step: the turn is taken off the schedule, and `rdata` is 0 unless the step reads (20_memory.md
R76). DESIGN CHOICE for the cycle of a write, of which the spec says nothing (log 3). -/
def State.advance (s : State) : State := (s.setSchedule s.schedule.tail).setRdata 0

/-- `s` with `t` as the next turn. -/
def State.withTurn (s : State) (t : Turn) : State := s.setSchedule (t :: s.schedule)

/-- `s` with command `i` accepted and the engine next to move. Nothing is scheduled for it where the schedule is
empty, because the engine then moves anyway. -/
def State.withCommand (s : State) (i : Instr) : State :=
  let t := s.accept i
  if s.schedule.isEmpty then t else t.withTurn .engine

/-- An idle `s` with a write of `w` to CMD as the next turn. -/
def State.withCmdWrite (s : State) (w : Word) : State :=
  ((s.setInflight none).setStatus { s.status with busy := false }).withTurn
    (.host (.access (.write (offsetOf .cmd) w)))

end Sys2Proof.Machine
end

