-- ==== Sys2Proof/Machine/Control.lean ====
section
/-! DEFINITION. The control family: NOP (42_control.md). -/

namespace Sys2Proof.Machine

/-- NOP: no effect, then completion (42_control.md R150, 30_encoding.md R91). -/
def execNop (s : State) : Host.Outcome State Fault Refusal := .next s.complete

end Sys2Proof.Machine
end

