-- ==== Sys2Proof/Machine/Crc64.lean ====
section
/-! DEFINITION. The CRC-64 unit (41_crc64.md): the table, the fold, the message CRC, and the four commands at their
completion (30_encoding.md R91). -/

namespace Sys2Proof.Machine

/-- The reversed polynomial (00_scope.md R9, 41_crc64.md R121). -/
def crcPoly : DWord := 0x95AC9329AC4BC9B5

/-- The initial value (41_crc64.md R123). -/
def crcInitValue : DWord := 0xFFFFFFFFFFFFFFFF

/-- One round of the table construction (41_crc64.md R121). -/
def crcRound (c : DWord) : DWord := if c.getLsbD 0 then (c >>> 1) ^^^ crcPoly else c >>> 1

/-- `n` rounds. -/
def crcRounds (n : Nat) (c : DWord) : DWord := crcRound^[n] c

/-- TableEntry (41_crc64.md R121); TABLE is this function (10_state.md R40). -/
def tableEntry (i : Byte) : DWord := crcRounds 8 (i.setWidth 64)

/-- Fold (41_crc64.md R122). -/
def fold (a : DWord) (b : Byte) : DWord :=
  tableEntry ((a ^^^ b.setWidth 64).extractLsb' 0 8) ^^^ (a >>> 8)

/-- The left fold of a message from an accumulator. -/
def foldBytes (a : DWord) (m : List Byte) : DWord := m.foldl fold a

/-- CRC64 of a message: from the initial value, with no final step (41_crc64.md R124, R129). -/
def crc64 (m : List Byte) : DWord := foldBytes crcInitValue m

/-- CRC_INIT: ACC <- the initial value (41_crc64.md R125). -/
def execCrcInit (s : State) : Host.Outcome State Fault Refusal := .next (s.setAcc crcInitValue).complete

/-- CRC_UPD8: one byte (41_crc64.md R126). -/
def execCrcUpd8 (s : State) : Host.Outcome State Fault Refusal :=
  .next (s.setAcc (foldBytes s.acc [argByte0 s.arg])).complete

/-- CRC_UPD16: two bytes, the low byte first (41_crc64.md R127). -/
def execCrcUpd16 (s : State) : Host.Outcome State Fault Refusal :=
  .next (s.setAcc (foldBytes s.acc [argByte0 s.arg, argByte1 s.arg])).complete

/-- CRC_UPD32: four bytes, the least significant first (41_crc64.md R128). -/
def execCrcUpd32 (s : State) : Host.Outcome State Fault Refusal :=
  .next (s.setAcc (foldBytes s.acc [argByte0 s.arg, argByte1 s.arg, argByte2 s.arg, argByte3 s.arg])).complete

end Sys2Proof.Machine
end

