-- ==== Sys2Proof/Machine/Tea.lean ====
section
/-! DEFINITION. The TEA unit (40_tea.md): the mixing function, one round each way, the 32 rounds, and the two commands
at their completion (30_encoding.md R91). The round function is the spec's general knowledge (R101, R102; log 8). -/

namespace Sys2Proof.Machine

/-- DELTA (00_scope.md R9, 40_tea.md R100). -/
def teaDelta : Word := 0x9E3779B9

/-- The number of rounds (00_scope.md R9). -/
def teaRounds : Nat := 32

/-- Where decryption's `sum` starts (40_tea.md R101). -/
def teaDecStart : Word := 0xC6EF3720

/-- What one round changes; `sum` is local to a command (40_tea.md R100). -/
structure TeaRegs where
  sum : Word
  v0 : Word
  v1 : Word
  deriving DecidableEq, Repr

/-- The mixing function F(x, s, ka, kb) (40_tea.md R102). -/
def teaMix (x s ka kb : Word) : Word := ((x <<< 4) + ka) ^^^ (x + s) ^^^ ((x >>> 5) + kb)

/-- One iteration of TEA_ENC's loop (40_tea.md R103): the v1 update uses the new v0. -/
def teaEncRound (k : TeaKey) (r : TeaRegs) : TeaRegs :=
  let sum := r.sum + teaDelta
  let v0 := r.v0 + teaMix r.v1 sum k.k0 k.k1
  let v1 := r.v1 + teaMix v0 sum k.k2 k.k3
  ⟨sum, v0, v1⟩

/-- One iteration of TEA_DEC's loop (40_tea.md R104): the v0 update uses the new v1. -/
def teaDecRound (k : TeaKey) (r : TeaRegs) : TeaRegs :=
  let v1 := r.v1 - teaMix r.v0 r.sum k.k2 k.k3
  let v0 := r.v0 - teaMix v1 r.sum k.k0 k.k1
  ⟨r.sum - teaDelta, v0, v1⟩

/-- `n` iterations of encryption. -/
def teaEncLoop (k : TeaKey) (n : Nat) (r : TeaRegs) : TeaRegs := (teaEncRound k)^[n] r

/-- `n` iterations of decryption. -/
def teaDecLoop (k : TeaKey) (n : Nat) (r : TeaRegs) : TeaRegs := (teaDecRound k)^[n] r

/-- The block words of a round's registers. -/
def teaResult (r : TeaRegs) : TeaBlock := ⟨r.v0, r.v1⟩

/-- One block encrypted (40_tea.md R103). -/
def teaEncrypt (k : TeaKey) (b : TeaBlock) : TeaBlock := teaResult (teaEncLoop k teaRounds ⟨0, b.v0, b.v1⟩)

/-- One block decrypted (40_tea.md R104). -/
def teaDecrypt (k : TeaKey) (b : TeaBlock) : TeaBlock :=
  teaResult (teaDecLoop k teaRounds ⟨teaDecStart, b.v0, b.v1⟩)

/-- TEA_ENC (40_tea.md R103). -/
def execTeaEnc (s : State) : Host.Outcome State Fault Refusal :=
  .next (s.setBlock (teaEncrypt s.key s.block)).complete

/-- TEA_DEC (40_tea.md R104). -/
def execTeaDec (s : State) : Host.Outcome State Fault Refusal :=
  .next (s.setBlock (teaDecrypt s.key s.block)).complete

end Sys2Proof.Machine
end

