-- ==== Sys2Proof/Machine/Dispatch.lean ====
section
/-! DEFINITION. One arm per command: what its completion does (30_encoding.md R91). -/

namespace Sys2Proof.Machine

def exec (i : Instr) (s : State) : Host.Outcome State Fault Refusal :=
  match i with
  | .nop => Sys2Proof.Machine.execNop s
  | .crcInit => Sys2Proof.Machine.execCrcInit s
  | .crcUpd8 => Sys2Proof.Machine.execCrcUpd8 s
  | .crcUpd16 => Sys2Proof.Machine.execCrcUpd16 s
  | .crcUpd32 => Sys2Proof.Machine.execCrcUpd32 s
  | .teaEnc => Sys2Proof.Machine.execTeaEnc s
  | .teaDec => Sys2Proof.Machine.execTeaDec s

end Sys2Proof.Machine
end

