-- ==== Sys2Proof/Machine/Step.lean ====
section
/-! DEFINITION. One step of the block: the engine's completion of the command in flight, or an event from outside,
whichever has its turn (20_memory.md R70, R71; 30_encoding.md R91). -/

namespace Sys2Proof.Machine

/-- One atomic step (20_memory.md R70, R71). -/
def step (s : State) : Host.Outcome State Fault Refusal :=
  match nextStep s with
  | .command i => exec i s.advance
  | .outside e => .next (hostEvent s.advance e)
  | .quiet => .next s.advance

/-- `s` such that its next step runs the command in the word: the command is in flight and the engine moves next.
A word that is no command stands as the next CMD write of an idle block, which rejects it (60_exceptions.md R162);
bits beyond 32 are no CMD write at all (30_encoding.md R86). Log 16. -/
def State.withFetchWord (s : State) (nbits w : Nat) : State :=
  match decodeTableWord nbits w with
  | some i => s.withCommand i
  | none => if nbits ≤ 32 then s.withCmdWrite (BitVec.ofNat 32 (w % 2 ^ nbits)) else s

end Sys2Proof.Machine
end

