-- ==== Sys2Proof/Machine/Driver.lean ====
section
/-! DEFINITION. The host-program notation's statements as turns (30_encoding.md R87, R88), for every number of busy
polls a WAIT makes, and the packing of bytes into TEA words (20_memory.md R69). Host side: no step depends on it.
Log 17. -/

namespace Sys2Proof.Machine

/-- `W off, v` (30_encoding.md R87). -/
def hostW (r : Slot) (v : Word) : Turn := .host (.access (.write (offsetOf r) v))

/-- `R off -> name` (30_encoding.md R87). -/
def hostR (r : Slot) : Turn := .host (.access (.read (offsetOf r)))

/-- `CMD MNEMONIC` (30_encoding.md R87). -/
def hostCmd (i : Instr) : Turn := hostW .cmd (encode i)

/-- `WAIT` when it sees BUSY = 1 `polls` times before the command completes (30_encoding.md R87). -/
def hostWait (polls : Nat) : List Turn := List.replicate polls (hostR .status) ++ [.engine, hostR .status]

/-- The two orders of a completion and a host access in one clock cycle; the spec leaves the order open and admits
both (20_memory.md R71, 93_implementation_defined.md O8). -/
inductive SameCycleOrder where
  /-- The access sees the state before the completion. -/
  | accessFirst
  /-- The access sees the completed command. -/
  | completionFirst
  deriving DecidableEq, Repr

/-- The busy polls of a host that reads STATUS once every cycle after the acceptance (70_reset_and_hazards.md R203):
the poll in the completion's own cycle sees BUSY = 1 or 0 by the order, which stays open (log 12). -/
def busyPolls (i : Instr) : SameCycleOrder → Nat
  | .accessFirst => Config.latency i
  | .completionFirst => Config.latency i - 1

/-- `CMD MNEMONIC ; WAIT`. -/
def hostCommand (i : Instr) (polls : Nat) : List Turn := hostCmd i :: hostWait polls

/-- `CRC8 b` (30_encoding.md R88). -/
def hostCrc8 (b : Word) (polls : Nat) : List Turn := hostW .arg b :: hostCommand .crcUpd8 polls

/-- `CRC16 c` (30_encoding.md R88). -/
def hostCrc16 (c : Word) (polls : Nat) : List Turn := hostW .arg c :: hostCommand .crcUpd16 polls

/-- `CRC32 x` (30_encoding.md R88). -/
def hostCrc32 (x : Word) (polls : Nat) : List Turn := hostW .arg x :: hostCommand .crcUpd32 polls

/-- `READCRC -> h:l` (30_encoding.md R88). -/
def hostReadCrc : List Turn := [hostR .crcLo, hostR .crcHi]

/-- `SETKEY k0,k1,k2,k3` (30_encoding.md R88). -/
def hostSetKey (k : TeaKey) : List Turn := [hostW .key0 k.k0, hostW .key1 k.k1, hostW .key2 k.k2, hostW .key3 k.k3]

/-- `ENC v0,v1 -> r0,r1` (30_encoding.md R88). -/
def hostEnc (b : TeaBlock) (polls : Nat) : List Turn :=
  [hostW .teaV0 b.v0, hostW .teaV1 b.v1] ++ hostCommand .teaEnc polls ++ [hostR .teaV0, hostR .teaV1]

/-- `DEC v0,v1 -> r0,r1` (30_encoding.md R88). -/
def hostDec (b : TeaBlock) (polls : Nat) : List Turn :=
  [hostW .teaV0 b.v0, hostW .teaV1 b.v1] ++ hostCommand .teaDec polls ++ [hostR .teaV0, hostR .teaV1]

/-- A message fed one byte a command, each byte with its own number of busy polls (41_crc64.md R129). -/
def hostFeed : List (Byte × Nat) → List Turn
  | [] => []
  | (b, polls) :: m => hostCrc8 (b.setWidth 32) polls ++ hostFeed m

/-- One character code as two bytes, the low byte first (41_crc64.md R127). -/
def charBytes (c : BitVec 16) : List Byte := [c.extractLsb' 0 8, c.extractLsb' 8 8]

/-- What the driver of the string overload returns: 0 for the empty string, with no command issued (41_crc64.md
R133). -/
def stringCrc : List (BitVec 16) → DWord
  | [] => 0
  | c :: s => crc64 ((c :: s).flatMap charBytes)

/-- One CRC_UPD16 for each code unit (41_crc64.md R133). -/
def hostFeedChars : List (BitVec 16 × Nat) → List Turn
  | [] => []
  | (c, polls) :: s => hostCrc16 (c.setWidth 32) polls ++ hostFeedChars s

/-- The driver of the string overload (41_crc64.md R133): CRC_INIT, a CRC_UPD16 for each code unit, and the read of
ACC. -/
def hostString (initPolls : Nat) : List (BitVec 16 × Nat) → List Turn
  | [] => []
  | c :: s => hostCommand .crcInit initPolls ++ hostFeedChars (c :: s) ++ hostReadCrc

/-- Four bytes of a TEA payload or key as one word, in the driver's byte order (20_memory.md R69). -/
def packTeaWord (b0 b1 b2 b3 : Byte) : Word :=
  match Config.teaByteOrder with
  | .big => b0 ++ b1 ++ b2 ++ b3
  | .little => b3 ++ b2 ++ b1 ++ b0

end Sys2Proof.Machine
end

