-- ==== Sys2Proof/Machine/Ports.lean ====
section
/-! DEFINITION. The block's input signals in one clock cycle (20_memory.md R76) as the turns of that cycle. No step
depends on it. -/

namespace Sys2Proof.Machine

/-- The inputs sampled at one rising edge of `clk` (20_memory.md R76). -/
structure Signals where
  rst : Bool
  sel : Bool
  we : Bool
  /-- The word index `off[5:2]`. -/
  addr : BitVec 4
  wdata : Word
  deriving DecidableEq, Repr

/-- The access of the cycle: one when `sel` = 1 (20_memory.md R76). -/
def Signals.access (p : Signals) : Option Access :=
  let off : Offset := p.addr ++ (0 : BitVec 2)
  match p.sel, p.we with
  | true, true => some (.write off p.wdata)
  | true, false => some (.read off)
  | false, _ => none

/-- The event of the cycle; a reset cycle's access is ignored (70_reset_and_hazards.md R190). -/
def Signals.event (p : Signals) : Option HostEvent :=
  match p.rst, p.access with
  | true, a => some (.reset a)
  | false, some a => some (.access a)
  | false, none => none

/-- The orders a cycle admits: with a completion in the same cycle an access may come before or after it
(20_memory.md R71), and a reset abandons the command (70_reset_and_hazards.md R191; log 2). -/
def Signals.orders (p : Signals) (completes : Bool) : List (List Turn) :=
  match p.rst, completes, p.event with
  | true, _, some e => [[.host e]]
  | false, true, some e => [[.engine, .host e], [.host e, .engine]]
  | false, false, some e => [[.host e]]
  | _, true, none => [[.engine]]
  | _, false, none => [[]]

end Sys2Proof.Machine
end

