-- ==== Sys2Proof/Safety.lean ====
section
/-! DEFINITION. The terms claims are stated in: the relations between fields that hold in every reachable state
(10_state.md R26, R27), which access an event delivers to the block, the software hazards (70_reset_and_hazards.md
R197, R198), and the protocol every command follows (30_encoding.md R89, R90; 60_exceptions.md R163). -/

namespace Sys2Proof.Machine

/-- BUSY is 1 exactly when INFLIGHT is not none, and while BUSY = 1, DONE = 0 (10_state.md R26, R27). -/
abbrev State.Consistent (s : State) : Prop :=
  s.status.busy = s.inflight.isSome ∧ (s.status.busy = true → s.status.done = false)

/-- The word index `off[5:2]` the port carries (20_memory.md R61). -/
def wordIndex (off : Offset) : BitVec 4 := off.extractLsb' 2 4

/-- The host access an event delivers to the block; a reset ignores the access made in its cycle
(70_reset_and_hazards.md R190), and a bus access outside the window does not reach the block (20_memory.md R61). -/
def HostEvent.delivers : HostEvent → Option Access
  | .access a => some a
  | .bus addr op =>
    match windowOffset addr, op with
    | some off, .read => some (.read off)
    | some off, .write v => some (.write off v)
    | none, _ => none
  | .reset _ => none

/-- The event is a reset (70_reset_and_hazards.md R190). -/
def HostEvent.isReset : HostEvent → Bool
  | .reset _ => true
  | .access _ => false
  | .bus _ _ => false

/-- The turn is a reset. -/
def Turn.isReset : Turn → Bool
  | .engine => false
  | .host e => e.isReset

/-- What 70_reset_and_hazards.md R197 and R198 tell software not to do: read a result, or write a busy-guarded
register, while a command is in flight. The block defines what happens then all the same. -/
def hazard (s : State) : Access → Bool
  | .read off => s.status.busy && openWhileBusy (slotOf off)
  | .write off _ => s.status.busy && busyGuarded (slotOf off)

/-- The protocol of a command with word `w`: `w` decodes to it, a write of `w` to CMD while idle accepts it
(30_encoding.md R90), and one while busy raises ERR_BUSY and changes nothing else (60_exceptions.md R163). -/
def CommandProtocol (i : Instr) (w : Word) : Prop :=
  decode w = .ok i ∧
  (∀ (s : State) (off : Offset), wordIndex off = 3 → s.status.busy = false →
    regWrite s off w =
      { s with inflight := some i, status := { s.status with busy := true, done := false } }) ∧
  (∀ (s : State) (off : Offset), wordIndex off = 3 → s.status.busy = true →
    regWrite s off w = { s with status := { s.status with errBusy := true } })

/-- `n` steps (Host.Core.run of the machine, written over its own state). -/
def run : Nat → State → Host.Outcome State Fault Refusal
  | 0, s => .next s
  | n + 1, s =>
    match step s with
    | .next t => run n t
    | .fault r => .fault r
    | .refused r => .refused r

end Sys2Proof.Machine
end

