-- ==== Sys2Proof/Certificates/Slice0/Obligations.lean ====
section
/-! DEFINITION. The statements for the provers, from the spec's numbered rules; OBLIGATIONS.json lists them. -/

section

open Sys2Proof Sys2Proof.Machine

/-- Reset leaves every register at its reset value and abandons the command in flight (R191). -/
def Obligations.ResetSetsEveryRegister : Prop :=
  (ctrlWord State.reset.ctrl = 0x00000000 ∧ statusWord State.reset.status = 0x00000000 ∧
    State.reset.arg = 0x00000000 ∧ State.reset.acc = 0xFFFFFFFFFFFFFFFF ∧
    State.reset.key = ⟨0x00000000, 0x00000000, 0x00000000, 0x00000000⟩ ∧
    State.reset.block = ⟨0x00000000, 0x00000000⟩ ∧ State.reset.inflight = none ∧ State.reset.irq = false ∧
    slotValue State.reset .id = Config.blockId) ∧
  ∀ (s : State) (d : Option Access) (rest : List Turn), s.schedule = .host (.reset d) :: rest →
    ∃ t, step s = .next t ∧ t.ctrl = ⟨false, false⟩ ∧ t.status = ⟨false, false, false, false⟩ ∧
      t.arg = 0x00000000 ∧ t.acc = 0xFFFFFFFFFFFFFFFF ∧
      t.key = ⟨0x00000000, 0x00000000, 0x00000000, 0x00000000⟩ ∧ t.block = ⟨0x00000000, 0x00000000⟩ ∧
      t.inflight = none ∧ t.rdata = 0 ∧ t.irq = false ∧ slotValue t .id = Config.blockId ∧ t.schedule = rest

/-- The reset state meets the invariant on BUSY, INFLIGHT and DONE (10_state.md section 4, 70_reset_and_hazards.md
section 1). -/
def Obligations.ConsistentAfterReset : Prop :=
  State.reset.Consistent

/-- Every step keeps: BUSY is 1 exactly when INFLIGHT is not none, and DONE is 0 while busy (10_state.md section 4,
30_encoding.md section 5, 60_exceptions.md section 1). -/
def Obligations.EveryStepKeepsBusyAndDoneConsistent : Prop :=
  ∀ s t : State, s.Consistent → step s = .next t → t.Consistent

/-- No step faults, refuses or gets stuck (93_implementation_defined.md section 2, 60_exceptions.md section 1). -/
def Obligations.EveryStepAnswersNext : Prop :=
  ∀ s : State, ∃ t, step s = .next t

/-- The seven command words of the opcode map decode to their commands (R84). -/
def Obligations.OpcodeMapWordsDecode : Prop :=
  (decode 0x00000000 = .ok .nop ∧ decode 0x00000001 = .ok .crcInit ∧ decode 0x00000002 = .ok .crcUpd8 ∧
    decode 0x00000003 = .ok .crcUpd16 ∧ decode 0x00000004 = .ok .crcUpd32 ∧ decode 0x00000010 = .ok .teaEnc ∧
    decode 0x00000011 = .ok .teaDec) ∧
  (encode .nop = 0x00000000 ∧ encode .crcInit = 0x00000001 ∧ encode .crcUpd8 = 0x00000002 ∧
    encode .crcUpd16 = 0x00000003 ∧ encode .crcUpd32 = 0x00000004 ∧ encode .teaEnc = 0x00000010 ∧
    encode .teaDec = 0x00000011)

/-- Decode and encode agree over all 2^32 words: a word decodes to a command exactly when it is its encoding
(30_encoding.md section 1, 30_encoding.md section 3). -/
def Obligations.DecodeInvertsEncodeOnEveryWord : Prop :=
  (∀ i : Instr, i.wf = true) ∧ ∀ (w : Word) (i : Instr), decode w = .ok i ↔ w = encode i

/-- A command word is legal if and only if RSVD is 0 and OPCODE is one of the seven (R81). -/
def Obligations.WordLegalExactlyWhenReservedZeroAndOpcodeAssigned : Prop :=
  ∀ w : Word,
    ((∃ i, decode w = .ok i) ↔
      w.extractLsb' 8 24 = 0 ∧ w.extractLsb' 0 8 ∈ [0x00, 0x01, 0x02, 0x03, 0x04, 0x10, 0x11]) ∧
    ((∃ r, decode w = .error r) ↔
      ¬(w.extractLsb' 8 24 = 0 ∧ w.extractLsb' 0 8 ∈ [0x00, 0x01, 0x02, 0x03, 0x04, 0x10, 0x11]))

/-- Writing an illegal word to CMD while idle sets ERR_ILLEGAL and DONE and changes nothing else (R162). -/
def Obligations.IllegalWordWhileIdleIsRejected : Prop :=
  ∀ (s : State) (off : Offset) (w : Word) (rest : List Turn), wordIndex off = 3 → s.status.busy = false →
    s.schedule = .host (.access (.write off w)) :: rest →
    (w.extractLsb' 8 24 ≠ 0 ∨ (5 ≤ (w.extractLsb' 0 8).toNat ∧ (w.extractLsb' 0 8).toNat ≤ 0x0F) ∨
      0x12 ≤ (w.extractLsb' 0 8).toNat) →
    ∃ x : Word, step s = .next { s with
      schedule := rest, rdata := x, status := { s.status with errIllegal := true, done := true } }

/-- Writing a command word to CMD while idle sets INFLIGHT, BUSY = 1 and DONE = 0 and changes nothing else (R90). -/
def Obligations.LegalWordWhileIdleIsAccepted : Prop :=
  ∀ (s : State) (off : Offset) (i : Instr) (rest : List Turn), wordIndex off = 3 → s.status.busy = false →
    s.schedule = .host (.access (.write off (encode i))) :: rest →
    ∃ x : Word, step s = .next { s with
      schedule := rest, rdata := x, inflight := some i, status := { s.status with busy := true, done := false } }

/-- The engine's step is enabled exactly when INFLIGHT is not none and completes the command in flight (R91). -/
def Obligations.EngineTurnCompletesCommandInFlight : Prop :=
  ∀ (s : State) (rest : List Turn), s.schedule = .engine :: rest →
    ((∃ i, nextStep s = .command i) ↔ s.inflight ≠ none) ∧
    ∀ i, s.inflight = some i →
      (∃ x : Word, step s = exec i { s with schedule := rest, rdata := x }) ∧
      ∃ t, step s = .next t ∧ t.inflight = none ∧ t.status = { s.status with busy := false, done := true }

/-- A step runs the decoded command: the word written to CMD decodes to i, and the engine's next step is exec of i
(30_encoding.md section 1, 30_encoding.md section 5). The rdata of 0 is log 3. -/
def Obligations.CmdWriteThenEngineRunsDecodedCommand : Prop :=
  ∀ (s : State) (off : Offset) (w : Word) (i : Instr) (rest : List Turn), wordIndex off = 3 →
    s.status.busy = false → decode w = .ok i → i.wf = true →
    s.schedule = .host (.access (.write off w)) :: .engine :: rest →
    ∃ t, step s = .next t ∧ t.inflight = some i ∧
      step t = exec i { s with
        schedule := rest, rdata := 0, inflight := some i, status := { s.status with busy := true, done := false } }

/-- NOP: accepted as every command, refused with ERR_BUSY while busy, and its completion changes INFLIGHT, BUSY and
DONE only (R150). -/
def Obligations.NopOnlyCompletes : Prop :=
  CommandProtocol .nop 0x00000000 ∧
  (∀ s : State, exec .nop s =
    .next { s with
        inflight := none, status := { s.status with busy := false, done := true } }) ∧
  ∀ s : State, statusWord s.status = 0x00000004 →
    statusWord (regWrite s 0x0C 0x00000000).status = 0x00000005 ∧
    ∃ t, exec .nop (regWrite s 0x0C 0x00000000) = .next t ∧ statusWord t.status = 0x00000006

/-- CRC_INIT: ACC becomes all-ones; nothing else changes but the completion bits (R125). -/
def Obligations.CrcInitSetsInitialValue : Prop :=
  CommandProtocol .crcInit 0x00000001 ∧
  ∀ s : State, exec .crcInit s =
    .next { s with
        acc := 0xFFFFFFFFFFFFFFFF, inflight := none, status := { s.status with busy := false, done := true } }

/-- CRC_UPD8: ACC becomes Fold(ACC, ARG[7:0]); nothing else changes but the completion bits (R126). -/
def Obligations.CrcUpd8FoldsOneByte : Prop :=
  CommandProtocol .crcUpd8 0x00000002 ∧
  (∀ s : State, exec .crcUpd8 s =
    .next { s with
        acc := fold s.acc (s.arg.extractLsb' 0 8), inflight := none, status := { s.status with busy := false, done := true } }) ∧
  fold 0xFFFFFFFFFFFFFFFF 0xFF = 0x00FFFFFFFFFFFFFF ∧ fold 0 0x00 = 0 ∧ fold 0 0x80 = 0x95AC9329AC4BC9B5 ∧
  fold 0xFFFFFFFFFFFFFFFF 0x31 = 0xD4895E3CB9E4412D

/-- CRC_UPD16: ACC becomes Fold(Fold(ACC, ARG[7:0]), ARG[15:8]); nothing else changes but the completion bits
(R127). -/
def Obligations.CrcUpd16FoldsLowByteThenHighByte : Prop :=
  CommandProtocol .crcUpd16 0x00000003 ∧
  (∀ s : State, exec .crcUpd16 s =
    .next { s with
        acc := fold (fold s.acc (s.arg.extractLsb' 0 8)) (s.arg.extractLsb' 8 8),
        inflight := none, status := { s.status with busy := false, done := true } }) ∧
  fold (fold 0xFFFFFFFFFFFFFFFF 0x41) 0x00 = 0x3082D3D92B4A257F ∧
  fold (fold 0x3082D3D92B4A257F 0x42) 0x00 = 0x40678A36298869CF

/-- CRC_UPD32: ACC becomes the fold of ARG's four bytes, least significant first; nothing else changes but the
completion bits (R128). -/
def Obligations.CrcUpd32FoldsFourBytesLeastSignificantFirst : Prop :=
  CommandProtocol .crcUpd32 0x00000004 ∧
  (∀ s : State, exec .crcUpd32 s =
    .next { s with
        acc := fold (fold (fold (fold s.acc (s.arg.extractLsb' 0 8)) (s.arg.extractLsb' 8 8))
          (s.arg.extractLsb' 16 8)) (s.arg.extractLsb' 24 8),
        inflight := none, status := { s.status with busy := false, done := true } }) ∧
  fold (fold (fold (fold 0xFFFFFFFFFFFFFFFF 0xFF) 0xFF) 0xFF) 0xFF = 0x00000000FFFFFFFF ∧
  fold (fold (fold (fold 0xFFFFFFFFFFFFFFFF 0x31) 0x32) 0x33) 0x34 = 0xDE31064D7E008E2B

/-- TEA_ENC: the block becomes the result of the 32-round loop (round function: the spec's general knowledge, log 8)
(40_tea.md section 1, 40_tea.md section 2). The round function is what 40_tea.md marks "[from general knowledge,
not in source]" (log 8). -/
def Obligations.TeaEncRunsThirtyTwoRounds : Prop :=
  CommandProtocol .teaEnc 0x00000010 ∧
  ∀ s : State,
    let r := (List.range 32).foldl (fun (r : Word × Word × Word) _ =>
          let sum := r.1 + 0x9E3779B9
          let v0 := r.2.1 + (((r.2.2 <<< 4) + s.key.k0) ^^^ (r.2.2 + sum) ^^^ ((r.2.2 >>> 5) + s.key.k1))
          let v1 := r.2.2 + (((v0 <<< 4) + s.key.k2) ^^^ (v0 + sum) ^^^ ((v0 >>> 5) + s.key.k3))
          (sum, v0, v1)) (0x00000000, s.block.v0, s.block.v1)
    exec .teaEnc s = .next { s with
      block := ⟨r.2.1, r.2.2⟩, inflight := none, status := { s.status with busy := false, done := true } }

/-- TEA_DEC: the block becomes the result of the 32-round inverse loop (round function: the spec's general
knowledge, log 8) (40_tea.md section 1, 40_tea.md section 2). The round function is what 40_tea.md marks "[from
general knowledge, not in source]" (log 8). -/
def Obligations.TeaDecRunsThirtyTwoRounds : Prop :=
  CommandProtocol .teaDec 0x00000011 ∧
  ∀ s : State,
    let r := (List.range 32).foldl (fun (r : Word × Word × Word) _ =>
          let v1 := r.2.2 - (((r.2.1 <<< 4) + s.key.k2) ^^^ (r.2.1 + r.1) ^^^ ((r.2.1 >>> 5) + s.key.k3))
          let v0 := r.2.1 - (((v1 <<< 4) + s.key.k0) ^^^ (v1 + r.1) ^^^ ((v1 >>> 5) + s.key.k1))
          (r.1 - 0x9E3779B9, v0, v1)) (0xC6EF3720, s.block.v0, s.block.v1)
    exec .teaDec s = .next { s with
      block := ⟨r.2.1, r.2.2⟩, inflight := none, status := { s.status with busy := false, done := true } }

/-- The frame of every command: CTRL, ARG, KEY, error bits kept; ACC only by CRC commands, TEA_V0 and TEA_V1 only by
TEA commands (30_encoding.md section 2, 40_tea.md section 2, 41_crc64.md section 2, 42_control.md). -/
def Obligations.CommandsWriteOnlyTheirResultRegisters : Prop :=
  ∀ (i : Instr) (s : State), ∃ t, exec i s = .next t ∧ t.ctrl = s.ctrl ∧ t.arg = s.arg ∧ t.key = s.key ∧
    t.status = { s.status with busy := false, done := true } ∧ t.inflight = none ∧ t.rdata = s.rdata ∧
    t.schedule = s.schedule ∧ t.draws = s.draws ∧
    (i ∉ [Instr.crcInit, .crcUpd8, .crcUpd16, .crcUpd32] → t.acc = s.acc) ∧
    (i ∉ [Instr.teaEnc, .teaDec] → t.block = s.block)

/-- TableEntry is the 8-round construction; its three worked values hold and it is linear (R121). -/
def Obligations.TableEntryIsTheEightRoundConstruction : Prop :=
  (∀ i : Byte, tableEntry i =
    (List.range 8).foldl (fun (c : DWord) _ =>
      if c.getLsbD 0 then (c >>> 1) ^^^ 0x95AC9329AC4BC9B5 else c >>> 1) (i.setWidth 64)) ∧
  tableEntry 0 = 0 ∧ tableEntry 0x80 = 0x95AC9329AC4BC9B5 ∧ tableEntry 1 = 0x7AD870C830358979 ∧
  ∀ a b : Byte, tableEntry (a ^^^ b) = tableEntry a ^^^ tableEntry b

/-- Fold is the table entry of the low byte of the XOR, XORed with the accumulator shifted right by 8 (R122). -/
def Obligations.FoldIndexesTableAndShiftsByEight : Prop :=
  ∀ (a : DWord) (b : Byte),
    fold a b = tableEntry ((a ^^^ b.setWidth 64).extractLsb' 0 8) ^^^ (a >>> 8) ∧
    (fold a b).extractLsb' 56 8 = (tableEntry ((a ^^^ b.setWidth 64).extractLsb' 0 8)).extractLsb' 56 8

/-- The table-driven CRC of every message is the bit-serial CRC division of its bits, bit 0 of each byte first
(90_conflicts.md C3, 20_memory.md section 3, 41_crc64.md section 1). That the table method gives the exact
remainder is what 90_conflicts.md C3 marks as general knowledge (93_implementation_defined.md G5). -/
def Obligations.TableCrcEqualsBitSerialDivision : Prop :=
  ∀ m : List Byte, crc64 m =
    (m.flatMap fun b => (List.range 8).map b.getLsbD).foldl (fun (c : DWord) (bit : Bool) =>
      if c.getLsbD 0 ^^ bit then (c >>> 1) ^^^ 0x95AC9329AC4BC9B5 else c >>> 1) 0xFFFFFFFFFFFFFFFF

/-- The CRC of the empty message is all-ones, after CRC_INIT or after reset with no update (R130). -/
def Obligations.EmptyMessageGivesAllOnes : Prop :=
  crc64 [] = 0xFFFFFFFFFFFFFFFF ∧
  (∀ s : State, ∃ t, exec .crcInit s = .next t ∧
    (regRead t 0x18).rdata = 0xFFFFFFFF ∧ (regRead t 0x1C).rdata = 0xFFFFFFFF) ∧
  (regRead State.reset 0x18).rdata = 0xFFFFFFFF ∧ (regRead State.reset 0x1C).rdata = 0xFFFFFFFF

/-- CRC_UPD16 is two CRC_UPD8 and CRC_UPD32 is two CRC_UPD16 of ARG's parts, in the final ACC (41_crc64.md section
3). -/
def Obligations.WiderUpdatesGroupIntoByteUpdates : Prop :=
  ∀ s : State,
    (∃ t u v, exec .crcUpd8 { s with arg := (s.arg.extractLsb' 0 8).setWidth 32 } = .next t ∧
      exec .crcUpd8 { t with arg := (s.arg.extractLsb' 8 8).setWidth 32 } = .next u ∧
      exec .crcUpd16 s = .next v ∧ v.acc = u.acc) ∧
    (∃ t u v, exec .crcUpd16 { s with arg := (s.arg.extractLsb' 0 16).setWidth 32 } = .next t ∧
      exec .crcUpd16 { t with arg := (s.arg.extractLsb' 16 16).setWidth 32 } = .next u ∧
      exec .crcUpd32 s = .next v ∧ v.acc = u.acc)

/-- CRC_UPD8 ignores ARG[31:8] and CRC_UPD16 ignores ARG[31:16] (30_encoding.md section 2). -/
def Obligations.UnusedArgBitsAreIgnored : Prop :=
  ∀ (s : State) (x : Word),
    (x.extractLsb' 0 8 = s.arg.extractLsb' 0 8 → ∃ t u, exec .crcUpd8 s = .next t ∧
      exec .crcUpd8 { s with arg := x } = .next u ∧ u.acc = t.acc) ∧
    (x.extractLsb' 0 16 = s.arg.extractLsb' 0 16 → ∃ t u, exec .crcUpd16 s = .next t ∧
      exec .crcUpd16 { s with arg := x } = .next u ∧ u.acc = t.acc)

/-- Two states with equal ACC and ARG get equal ACC from each CRC command (41_crc64.md section 3). -/
def Obligations.CrcResultDependsOnAccAndArgOnly : Prop :=
  ∀ (i : Instr) (s s' : State), i ∈ [Instr.crcInit, .crcUpd8, .crcUpd16, .crcUpd32] → s.acc = s'.acc →
    s.arg = s'.arg → ∃ t t', exec i s = .next t ∧ exec i s' = .next t' ∧ t.acc = t'.acc

/-- Changing any single byte of a message, and so any single bit, changes its CRC (41_crc64.md section 3). -/
def Obligations.ChangingOneByteChangesTheCrc : Prop :=
  ∀ (m n : List Byte) (b b' : Byte), b ≠ b' → crc64 (m ++ b :: n) ≠ crc64 (m ++ b' :: n)

/-- CRC_INIT and one CRC_UPD8 per byte leave CRC64 of the bytes in ACC, for every message and every latency
(41_crc64.md section 3, 30_encoding.md section 4, 30_encoding.md section 5, 70_reset_and_hazards.md section 4). -/
def Obligations.ByteCommandsComputeTheMessageCrc : Prop :=
  ∀ (s : State) (p : Nat) (m : List (Byte × Nat)) (rest : List Turn), s.status.busy = false → s.inflight = none →
    s.schedule = hostCommand .crcInit p ++ hostFeed m ++ rest →
    ∃ t, run (hostCommand .crcInit p ++ hostFeed m).length s = .next t ∧
      t.acc = crc64 (m.map Prod.fst) ∧ t.status = { s.status with busy := false, done := true } ∧
      t.inflight = none ∧ t.key = s.key ∧ t.block = s.block ∧ t.ctrl = s.ctrl ∧ t.draws = s.draws ∧
      t.schedule = rest

/-- The worked values of TEA_ENC and TEA_DEC (round function: the spec's general knowledge, log 8) (40_tea.md
section 2, 95_test_vectors.md section 2.3). The round function is what 40_tea.md marks "[from general knowledge,
not in source]" (log 8). -/
def Obligations.TeaWorkedValues : Prop :=
  teaEncrypt ⟨0, 0, 0, 0⟩ ⟨0, 0⟩ = ⟨0x41EA3A0A, 0x94BAA940⟩ ∧
  teaDecrypt ⟨0, 0, 0, 0⟩ ⟨0x41EA3A0A, 0x94BAA940⟩ = ⟨0, 0⟩ ∧
  teaDecrypt ⟨0, 0, 0, 0⟩ ⟨0, 0⟩ = ⟨0x1423FF6D, 0x9216EF3A⟩ ∧
  teaEncrypt ⟨0x00010203, 0x04050607, 0x08090A0B, 0x0C0D0E0F⟩ ⟨0x41424344, 0x45464748⟩ =
    ⟨0xDF25FC42, 0x79B8F929⟩

/-- TEA_ENC then TEA_DEC, and TEA_DEC then TEA_ENC, restore the block, for every key and block (R105). -/
def Obligations.EncryptAndDecryptAreInverses : Prop :=
  ∀ s : State,
    (∃ t, exec .teaEnc s = .next t ∧ ∀ t' : State, t'.block = t.block → t'.key = t.key →
      ∃ u, exec .teaDec t' = .next u ∧ u.block.v0 = s.block.v0 ∧ u.block.v1 = s.block.v1) ∧
    (∃ t, exec .teaDec s = .next t ∧ ∀ t' : State, t'.block = t.block → t'.key = t.key →
      ∃ u, exec .teaEnc t' = .next u ∧ u.block.v0 = s.block.v0 ∧ u.block.v1 = s.block.v1)

/-- ECB: a TEA command's result depends on the key and the block only (R106). -/
def Obligations.TeaResultDependsOnKeyAndBlockOnly : Prop :=
  ∀ (i : Instr) (s s' : State), i ∈ [Instr.teaEnc, .teaDec] → s.key = s'.key → s.block = s'.block →
    ∃ t t', exec i s = .next t ∧ exec i s' = .next t' ∧ t.block = t'.block

/-- The sum schedule: encryption ends at 0xC6EF3720 = 32 * DELTA, where decryption starts, and decryption ends at 0
(40_tea.md section 1, 40_tea.md section 2). The start values and the placement of the additions are what
40_tea.md marks "[from general knowledge, not in source]" (log 8). -/
def Obligations.TeaSumSchedule : Prop :=
  ∀ (k : TeaKey) (v0 v1 : Word),
    (∀ n : Nat, (teaEncLoop k n ⟨0, v0, v1⟩).sum = BitVec.ofNat 32 (n * 0x9E3779B9)) ∧
    (teaEncLoop k 32 ⟨0, v0, v1⟩).sum = 0xC6EF3720 ∧ (teaDecLoop k 32 ⟨0xC6EF3720, v0, v1⟩).sum = 0

/-- While busy, a write to a busy-guarded register only sets ERR_BUSY; writes to the other slots follow their own
rules (R163). -/
def Obligations.GuardedWriteWhileBusyIsRefused : Prop :=
  ∀ (s : State) (off : Offset) (v : Word) (rest : List Turn), s.status.busy = true →
    s.schedule = .host (.access (.write off v)) :: rest →
    (wordIndex off ∈ [3, 4, 6, 7, 8, 9, 10, 11, 12, 13] →
      ∃ x : Word, step s = .next { s with schedule := rest, rdata := x, status := { s.status with errBusy := true } }) ∧
    (wordIndex off = 1 →
      ∃ x : Word, step s = .next { s with schedule := rest, rdata := x, ctrl := ⟨v.getLsbD 0, v.getLsbD 1⟩ }) ∧
    (wordIndex off = 2 →
      ∃ x : Word, step s = .next { s with
        schedule := rest, rdata := x
        status := ⟨true, s.status.done && !v.getLsbD 1, s.status.errIllegal && !v.getLsbD 2,
          s.status.errBusy && !v.getLsbD 3⟩ }) ∧
    (wordIndex off ∈ [0, 5, 14, 15] → ∃ x : Word, step s = .next { s with schedule := rest, rdata := x })

/-- While idle, a write stores exactly the register at its word index (10_state.md section 3, 10_state.md section 5,
20_memory.md section 2). -/
def Obligations.WriteWhileIdleStoresItsRegister : Prop :=
  ∀ (s : State) (off : Offset) (v : Word) (rest : List Turn), s.status.busy = false →
    s.schedule = .host (.access (.write off v)) :: rest →
    (wordIndex off ∈ [0, 5, 14, 15] → ∃ x : Word, step s = .next { s with schedule := rest, rdata := x }) ∧
    (wordIndex off = 1 →
      ∃ x : Word, step s = .next { s with schedule := rest, rdata := x, ctrl := ⟨v.getLsbD 0, v.getLsbD 1⟩ }) ∧
    (wordIndex off = 4 → ∃ x : Word, step s = .next { s with schedule := rest, rdata := x, arg := v }) ∧
    (wordIndex off = 6 →
      ∃ x : Word, step s = .next { s with schedule := rest, rdata := x, acc := s.acc.extractLsb' 32 32 ++ v }) ∧
    (wordIndex off = 7 →
      ∃ x : Word, step s = .next { s with schedule := rest, rdata := x, acc := v ++ s.acc.extractLsb' 0 32 }) ∧
    (wordIndex off = 8 →
      ∃ x : Word, step s = .next { s with schedule := rest, rdata := x, key := { s.key with k0 := v } }) ∧
    (wordIndex off = 9 →
      ∃ x : Word, step s = .next { s with schedule := rest, rdata := x, key := { s.key with k1 := v } }) ∧
    (wordIndex off = 10 →
      ∃ x : Word, step s = .next { s with schedule := rest, rdata := x, key := { s.key with k2 := v } }) ∧
    (wordIndex off = 11 →
      ∃ x : Word, step s = .next { s with schedule := rest, rdata := x, key := { s.key with k3 := v } }) ∧
    (wordIndex off = 12 →
      ∃ x : Word, step s = .next { s with schedule := rest, rdata := x, block := { s.block with v0 := v } }) ∧
    (wordIndex off = 13 →
      ∃ x : Word, step s = .next { s with schedule := rest, rdata := x, block := { s.block with v1 := v } })

/-- STATUS: a write clears exactly the W1C bits written as 1, busy or not; a read gives the four bits and has no
side effect (R30). -/
def Obligations.StatusRegisterWritesAndReads : Prop :=
  ∀ (s : State) (off : Offset) (rest : List Turn), wordIndex off = 2 →
    (∀ v : Word, s.schedule = .host (.access (.write off v)) :: rest →
      ∃ x : Word, step s = .next { s with
        schedule := rest, rdata := x
        status :=
          { busy := s.status.busy
            done := if v.getLsbD 1 = true then false else s.status.done
            errIllegal := if v.getLsbD 2 = true then false else s.status.errIllegal
            errBusy := if v.getLsbD 3 = true then false else s.status.errBusy } }) ∧
    (s.schedule = .host (.access (.read off)) :: rest →
      step s = .next { s with
        schedule := rest
        rdata := (BitVec.ofBool s.status.errBusy ++ BitVec.ofBool s.status.errIllegal ++
          BitVec.ofBool s.status.done ++ BitVec.ofBool s.status.busy).setWidth 32 })

/-- CTRL: a write stores v[1:0] at once, busy or not; a read gives the two bits; they enable irq (R23). -/
def Obligations.CtrlRegisterWritesReadsAndMasksIrq : Prop :=
  (∀ (s : State) (off : Offset) (rest : List Turn), wordIndex off = 1 →
    (∀ v : Word, s.schedule = .host (.access (.write off v)) :: rest →
      ∃ x : Word, step s = .next { s with schedule := rest, rdata := x, ctrl := ⟨v.getLsbD 0, v.getLsbD 1⟩ }) ∧
    (s.schedule = .host (.access (.read off)) :: rest →
      step s = .next { s with
        schedule := rest
        rdata := (BitVec.ofBool s.ctrl.errIe ++ BitVec.ofBool s.ctrl.doneIe).setWidth 32 })) ∧
  State.reset.ctrl = ⟨false, false⟩ ∧
  ∀ s : State,
    (s.ctrl.doneIe = true → s.status.done = true → s.irq = true) ∧
    (s.ctrl.errIe = true → s.status.errIllegal = true ∨ s.status.errBusy = true → s.irq = true) ∧
    (s.ctrl = ⟨false, false⟩ → s.irq = false)

/-- A read gives its register's value and changes nothing; only the four result registers are open while busy
(R170). -/
def Obligations.ReadReturnsTheRegisterUnlessOpen : Prop :=
  ∀ (s : State) (off : Offset) (rest : List Turn), s.schedule = .host (.access (.read off)) :: rest →
    ∃ (x : Word) (n : Nat), step s = .next { s with schedule := rest, rdata := x, draws := n } ∧
      (wordIndex off = 0 → x = Config.blockId) ∧
      (wordIndex off = 1 → x = ctrlWord s.ctrl) ∧
      (wordIndex off = 2 → x = statusWord s.status) ∧
      (wordIndex off ∈ [3, 5, 8, 9, 10, 11, 14, 15] → x = 0x00000000) ∧
      (wordIndex off = 4 → x = s.arg) ∧
      (s.status.busy = false →
        (wordIndex off = 6 → x = s.acc.extractLsb' 0 32) ∧ (wordIndex off = 7 → x = s.acc.extractLsb' 32 32) ∧
        (wordIndex off = 12 → x = s.block.v0) ∧ (wordIndex off = 13 → x = s.block.v1)) ∧
      (s.status.busy = false ∨ wordIndex off ∉ [6, 7, 12, 13] → n = s.draws)

/-- irq = (DONE_IE and DONE) or (ERR_IE and (ERR_ILLEGAL or ERR_BUSY)), and depends on nothing else (R166). -/
def Obligations.IrqIsTheEnabledPendingBits : Prop :=
  (∀ s : State, s.irq = true ↔
    (s.ctrl.doneIe = true ∧ s.status.done = true) ∨
      (s.ctrl.errIe = true ∧ (s.status.errIllegal = true ∨ s.status.errBusy = true))) ∧
  ∀ s t : State, s.ctrl = t.ctrl → s.status = t.status → s.irq = t.irq

/-- Offsets that differ only in bits 1:0 reach the same slot (the spec lets a model map them so or refuse; log 7)
(20_memory.md section 2, 93_implementation_defined.md section 2). -/
def Obligations.LowOffsetBitsDoNotReachTheBlock : Prop :=
  ∀ (s : State) (off off' : Offset) (v : Word), wordIndex off = wordIndex off' →
    regRead s off = regRead s off' ∧ regWrite s off v = regWrite s off' v

/-- A bus access at BLOCK_BASE + off is the access at off; outside the 64-byte window it does not reach the block
(log 6) (20_memory.md section 1). -/
def Obligations.BusAddressSelectsTheWindow : Prop :=
  ∀ (s : State) (rest : List Turn),
    (∀ off : Offset, s.schedule = .host (.bus (Config.blockBase + off.toNat) .read) :: rest →
      step s = step { s with schedule := .host (.access (.read off)) :: rest }) ∧
    (∀ (off : Offset) (v : Word), s.schedule = .host (.bus (Config.blockBase + off.toNat) (.write v)) :: rest →
      step s = step { s with schedule := .host (.access (.write off v)) :: rest }) ∧
    (∀ (addr : Nat) (op : BusOp), addr < Config.blockBase ∨ Config.blockBase + 64 ≤ addr →
      s.schedule = .host (.bus addr op) :: rest → step s = .next { s with schedule := rest, rdata := 0 })

/-- Repeating a read whose value is not open, or a write other than to CMD, has the effect of doing it once
(20_memory.md section 2). -/
def Obligations.RepeatedAccessIsIdempotentExceptCmd : Prop :=
  ∀ (s : State) (off : Offset) (v : Word),
    (wordIndex off ≠ 3 → regWrite (regWrite s off v) off v = regWrite s off v) ∧
    (s.status.busy = false ∨ wordIndex off ∉ [6, 7, 12, 13] → regRead (regRead s off) off = regRead s off)

/-- Once set, ERR_ILLEGAL and ERR_BUSY stay set until the host writes 1 to their bit or reset occurs (R28, R29). -/
def Obligations.ErrorBitsAreSticky : Prop :=
  ∀ s t : State, step s = .next t →
    (s.status.errIllegal = true →
      (t.status.errIllegal = false ↔ ∃ e rest, s.schedule = .host e :: rest ∧
        (e.isReset = true ∨
          ∃ off v, e.delivers = some (.write off v) ∧ wordIndex off = 2 ∧ v.getLsbD 2 = true))) ∧
    (s.status.errBusy = true →
      (t.status.errBusy = false ↔ ∃ e rest, s.schedule = .host e :: rest ∧
        (e.isReset = true ∨
          ∃ off v, e.delivers = some (.write off v) ∧ wordIndex off = 2 ∧ v.getLsbD 3 = true)))

/-- What can change each data register: an idle write to it, a completing command that writes it, or reset
(10_state.md section 5, 20_memory.md section 2, 30_encoding.md section 2). -/
def Obligations.OnlyIdleWritesCommandsAndResetChangeData : Prop :=
  ∀ s t : State, step s = .next t →
    let outsideAt := fun (idx : List (BitVec 4)) => ∃ e rest, s.schedule = .host e :: rest ∧
      (e.isReset = true ∨
        ∃ off v, e.delivers = some (.write off v) ∧ wordIndex off ∈ idx ∧ s.status.busy = false)
    (t.key ≠ s.key → outsideAt [8, 9, 10, 11]) ∧
    (t.arg ≠ s.arg → outsideAt [4]) ∧
    (t.acc ≠ s.acc → outsideAt [6, 7] ∨
      ∃ i, nextStep s = .command i ∧ i ∈ [Instr.crcInit, .crcUpd8, .crcUpd16, .crcUpd32]) ∧
    (t.block ≠ s.block → outsideAt [12, 13] ∨
      ∃ i, nextStep s = .command i ∧ i ∈ [Instr.teaEnc, .teaDec])

/-- No event from outside but reset changes an operand, a result register or the command in flight while busy
(30_encoding.md section 2, 60_exceptions.md section 1, 70_reset_and_hazards.md section 3). -/
def Obligations.OperandsAreFrozenWhileBusy : Prop :=
  ∀ (s : State) (e : HostEvent) (rest : List Turn), s.status.busy = true → s.schedule = .host e :: rest →
    e.isReset = false → ∃ t, step s = .next t ∧ t.arg = s.arg ∧ t.acc = s.acc ∧ t.key = s.key ∧
      t.block = s.block ∧ t.inflight = s.inflight ∧ t.status.busy = true ∧
      (t.status.errIllegal = true → s.status.errIllegal = true) ∧ (t.status.done = true → s.status.done = true)

/-- Under any host traffic without reset, the command in flight completes with the operands it was accepted with
(30_encoding.md section 5, 70_reset_and_hazards.md section 4). That an exhausted schedule gives the engine its
turn is the model's form of weak fairness (log 1). -/
def Obligations.CommandInFlightCompletesUnderAnyTraffic : Prop :=
  ∀ (s : State) (i : Instr), s.status.busy = true → s.inflight = some i →
    (∀ x ∈ s.schedule, x.isReset = false) →
    ∃ k t, k ≤ s.schedule.length ∧ run k s = .next t ∧ t.arg = s.arg ∧ t.acc = s.acc ∧
      t.key = s.key ∧ t.block = s.block ∧ t.inflight = some i ∧ step t = exec i t.advance

/-- Issuing a command and polling STATUS any number of times before it completes gives its result, whatever the
latency (30_encoding.md section 4, 30_encoding.md section 5, 70_reset_and_hazards.md section 4). The rdata of 0
is log 3. -/
def Obligations.PollingDoesNotChangeTheResult : Prop :=
  ∀ (s : State) (i : Instr) (n : Nat) (rest : List Turn), s.status.busy = false →
    s.schedule = hostCmd i :: (List.replicate n (hostR .status) ++ .engine :: rest) →
    run (n + 2) s = exec i { s with
      schedule := rest, rdata := 0, inflight := some i, status := { s.status with busy := true, done := false } }

/-- A CMD write that meets a completion: access first raises ERR_BUSY only, completion first accepts or rejects the
word (R164). -/
def Obligations.CmdWriteMeetingCompletionGoesBothWays : Prop :=
  (∀ (s u : State) (i : Instr) (off : Offset) (w : Word) (rest : List Turn), s.status.busy = true →
    s.inflight = some i → wordIndex off = 3 → exec i { s with schedule := rest, rdata := 0 } = .next u →
    (s.schedule = .host (.access (.write off w)) :: .engine :: rest →
      ∃ x : Word, run 2 s = .next { u with rdata := x, status := { u.status with errBusy := true } }) ∧
    (s.schedule = .engine :: .host (.access (.write off w)) :: rest →
      (∀ j, decode w = .ok j → ∃ x : Word, run 2 s = .next { u with
        rdata := x, inflight := some j, status := { u.status with busy := true, done := false } }) ∧
      (∀ r, decode w = .error r → ∃ x : Word, run 2 s = .next { u with
        rdata := x, status := { u.status with errIllegal := true, done := true } }))) ∧
  ∀ (s t : State) (e : HostEvent) (rest : List Turn), s.schedule = .host e :: rest → step s = .next t →
    s.status.errIllegal = false → s.status.errBusy = false →
    ¬(t.status.errIllegal = true ∧ t.status.errBusy = true)

/-- Two states that differ only in the key stay equal in everything else over any step but a completing TEA command;
rdata of an open read excepted (10_state.md section 5, 60_exceptions.md section 1, 60_exceptions.md section 4).
Of the value of a result register read while busy, which 60_exceptions.md R170 leaves open, nothing is said (log
4). -/
def Obligations.KeyIsUnobservableExceptThroughTea : Prop :=
  ∀ (s t t' : State) (k : TeaKey), nextStep s ≠ .command .teaEnc → nextStep s ≠ .command .teaDec →
    step s = .next t → step { s with key := k } = .next t' →
    { t' with key := t.key, rdata := t.rdata } = t ∧ t'.irq = t.irq ∧
    ((∀ e rest off, s.schedule = .host e :: rest → e.delivers = some (.read off) →
      s.status.busy = false ∨ wordIndex off ∉ [6, 7, 12, 13]) → t'.rdata = t.rdata)

/-- An access that respects the completion and operand-write hazards raises no ERR_BUSY and draws no open value
(70_reset_and_hazards.md section 3). -/
def Obligations.HazardFreeAccessRaisesNoBusyError : Prop :=
  ∀ (s : State) (a : Access) (rest : List Turn), s.schedule = .host (.access a) :: rest → hazard s a = false →
    ∃ t, step s = .next t ∧ (t.status.errBusy = true → s.status.errBusy = true) ∧ t.draws = s.draws

/-- CRC_LO and CRC_HI read one after the other while idle, in either order, form ACC (70_reset_and_hazards.md
section 3, 20_memory.md section 2). -/
def Obligations.IdleReadsOfBothHalvesGiveTheAccumulator : Prop :=
  ∀ (s : State) (rest : List Turn), s.status.busy = false → s.inflight = none →
    (s.schedule = hostR .crcLo :: hostR .crcHi :: rest →
      ∃ t u, step s = .next t ∧ step t = .next u ∧ u.rdata ++ t.rdata = s.acc ∧ u.acc = s.acc) ∧
    (s.schedule = hostR .crcHi :: hostR .crcLo :: rest →
      ∃ t u, step s = .next t ∧ step t = .next u ∧ t.rdata ++ u.rdata = s.acc ∧ u.acc = s.acc)

/-- A STATUS read that shows BUSY = 0 or DONE = 1 means nothing is in flight (20_memory.md section 4,
70_reset_and_hazards.md section 3). -/
def Obligations.StatusReadTellsCompletion : Prop :=
  ∀ (s : State) (rest : List Turn), s.Consistent → s.schedule = hostR .status :: rest →
    ∃ t, step s = .next t ∧ (t.rdata.getLsbD 0 = false ∨ t.rdata.getLsbD 1 = true → t.inflight = none)

/-- With nothing scheduled the engine has its turn, and an engine's turn with nothing in flight is a quiet step (the
model's choice, log 1) (30_encoding.md section 5). The rdata of 0 is log 3. -/
def Obligations.ExhaustedScheduleGivesTheEngineItsTurn : Prop :=
  ∀ s : State,
    (s.schedule = [] → step s = step { s with schedule := [.engine] }) ∧
    (s.schedule = [] ∨ (∃ rest, s.schedule = .engine :: rest) → s.inflight = none →
      step s = .next { s with schedule := s.schedule.tail, rdata := 0 })

/-- A step that delivers no read leaves rdata 0; for the cycle of a write that is the model's choice (log 3)
(20_memory.md section 1, 93_implementation_defined.md section 2). The spec gives the 0 for a cycle with sel = 0
and for a reset only. -/
def Obligations.StepsThatReadNothingLeaveRdataZero : Prop :=
  ∀ s t : State, step s = .next t →
    (∀ e rest off, s.schedule = .host e :: rest → e.delivers ≠ some (.read off)) → t.rdata = 0

end
end

