-- ==== Sys2Proof/Laws/State.lean ====
section
/-! SUPPORT. What every update of State leaves in every field, each true by rfl, so that no proof unfolds a record
update; and two states are equal when their fields are. -/

namespace Sys2Proof.Machine

/-! ### setCtrl -/

@[simp] theorem State.setCtrl_ctrl (s : State) (x : Ctrl) : (s.setCtrl x).ctrl = x := rfl
@[simp] theorem State.setCtrl_status (s : State) (x : Ctrl) : (s.setCtrl x).status = s.status := rfl
@[simp] theorem State.setCtrl_arg (s : State) (x : Ctrl) : (s.setCtrl x).arg = s.arg := rfl
@[simp] theorem State.setCtrl_acc (s : State) (x : Ctrl) : (s.setCtrl x).acc = s.acc := rfl
@[simp] theorem State.setCtrl_key (s : State) (x : Ctrl) : (s.setCtrl x).key = s.key := rfl
@[simp] theorem State.setCtrl_block (s : State) (x : Ctrl) : (s.setCtrl x).block = s.block := rfl
@[simp] theorem State.setCtrl_inflight (s : State) (x : Ctrl) : (s.setCtrl x).inflight = s.inflight := rfl
@[simp] theorem State.setCtrl_rdata (s : State) (x : Ctrl) : (s.setCtrl x).rdata = s.rdata := rfl
@[simp] theorem State.setCtrl_schedule (s : State) (x : Ctrl) : (s.setCtrl x).schedule = s.schedule := rfl
@[simp] theorem State.setCtrl_draws (s : State) (x : Ctrl) : (s.setCtrl x).draws = s.draws := rfl

/-! ### setStatus -/

@[simp] theorem State.setStatus_ctrl (s : State) (x : Status) : (s.setStatus x).ctrl = s.ctrl := rfl
@[simp] theorem State.setStatus_status (s : State) (x : Status) : (s.setStatus x).status = x := rfl
@[simp] theorem State.setStatus_arg (s : State) (x : Status) : (s.setStatus x).arg = s.arg := rfl
@[simp] theorem State.setStatus_acc (s : State) (x : Status) : (s.setStatus x).acc = s.acc := rfl
@[simp] theorem State.setStatus_key (s : State) (x : Status) : (s.setStatus x).key = s.key := rfl
@[simp] theorem State.setStatus_block (s : State) (x : Status) : (s.setStatus x).block = s.block := rfl
@[simp] theorem State.setStatus_inflight (s : State) (x : Status) : (s.setStatus x).inflight = s.inflight := rfl
@[simp] theorem State.setStatus_rdata (s : State) (x : Status) : (s.setStatus x).rdata = s.rdata := rfl
@[simp] theorem State.setStatus_schedule (s : State) (x : Status) : (s.setStatus x).schedule = s.schedule := rfl
@[simp] theorem State.setStatus_draws (s : State) (x : Status) : (s.setStatus x).draws = s.draws := rfl

/-! ### setArg -/

@[simp] theorem State.setArg_ctrl (s : State) (x : Word) : (s.setArg x).ctrl = s.ctrl := rfl
@[simp] theorem State.setArg_status (s : State) (x : Word) : (s.setArg x).status = s.status := rfl
@[simp] theorem State.setArg_arg (s : State) (x : Word) : (s.setArg x).arg = x := rfl
@[simp] theorem State.setArg_acc (s : State) (x : Word) : (s.setArg x).acc = s.acc := rfl
@[simp] theorem State.setArg_key (s : State) (x : Word) : (s.setArg x).key = s.key := rfl
@[simp] theorem State.setArg_block (s : State) (x : Word) : (s.setArg x).block = s.block := rfl
@[simp] theorem State.setArg_inflight (s : State) (x : Word) : (s.setArg x).inflight = s.inflight := rfl
@[simp] theorem State.setArg_rdata (s : State) (x : Word) : (s.setArg x).rdata = s.rdata := rfl
@[simp] theorem State.setArg_schedule (s : State) (x : Word) : (s.setArg x).schedule = s.schedule := rfl
@[simp] theorem State.setArg_draws (s : State) (x : Word) : (s.setArg x).draws = s.draws := rfl

/-! ### setAcc -/

@[simp] theorem State.setAcc_ctrl (s : State) (x : DWord) : (s.setAcc x).ctrl = s.ctrl := rfl
@[simp] theorem State.setAcc_status (s : State) (x : DWord) : (s.setAcc x).status = s.status := rfl
@[simp] theorem State.setAcc_arg (s : State) (x : DWord) : (s.setAcc x).arg = s.arg := rfl
@[simp] theorem State.setAcc_acc (s : State) (x : DWord) : (s.setAcc x).acc = x := rfl
@[simp] theorem State.setAcc_key (s : State) (x : DWord) : (s.setAcc x).key = s.key := rfl
@[simp] theorem State.setAcc_block (s : State) (x : DWord) : (s.setAcc x).block = s.block := rfl
@[simp] theorem State.setAcc_inflight (s : State) (x : DWord) : (s.setAcc x).inflight = s.inflight := rfl
@[simp] theorem State.setAcc_rdata (s : State) (x : DWord) : (s.setAcc x).rdata = s.rdata := rfl
@[simp] theorem State.setAcc_schedule (s : State) (x : DWord) : (s.setAcc x).schedule = s.schedule := rfl
@[simp] theorem State.setAcc_draws (s : State) (x : DWord) : (s.setAcc x).draws = s.draws := rfl

/-! ### setKey -/

@[simp] theorem State.setKey_ctrl (s : State) (x : TeaKey) : (s.setKey x).ctrl = s.ctrl := rfl
@[simp] theorem State.setKey_status (s : State) (x : TeaKey) : (s.setKey x).status = s.status := rfl
@[simp] theorem State.setKey_arg (s : State) (x : TeaKey) : (s.setKey x).arg = s.arg := rfl
@[simp] theorem State.setKey_acc (s : State) (x : TeaKey) : (s.setKey x).acc = s.acc := rfl
@[simp] theorem State.setKey_key (s : State) (x : TeaKey) : (s.setKey x).key = x := rfl
@[simp] theorem State.setKey_block (s : State) (x : TeaKey) : (s.setKey x).block = s.block := rfl
@[simp] theorem State.setKey_inflight (s : State) (x : TeaKey) : (s.setKey x).inflight = s.inflight := rfl
@[simp] theorem State.setKey_rdata (s : State) (x : TeaKey) : (s.setKey x).rdata = s.rdata := rfl
@[simp] theorem State.setKey_schedule (s : State) (x : TeaKey) : (s.setKey x).schedule = s.schedule := rfl
@[simp] theorem State.setKey_draws (s : State) (x : TeaKey) : (s.setKey x).draws = s.draws := rfl

/-! ### setBlock -/

@[simp] theorem State.setBlock_ctrl (s : State) (x : TeaBlock) : (s.setBlock x).ctrl = s.ctrl := rfl
@[simp] theorem State.setBlock_status (s : State) (x : TeaBlock) : (s.setBlock x).status = s.status := rfl
@[simp] theorem State.setBlock_arg (s : State) (x : TeaBlock) : (s.setBlock x).arg = s.arg := rfl
@[simp] theorem State.setBlock_acc (s : State) (x : TeaBlock) : (s.setBlock x).acc = s.acc := rfl
@[simp] theorem State.setBlock_key (s : State) (x : TeaBlock) : (s.setBlock x).key = s.key := rfl
@[simp] theorem State.setBlock_block (s : State) (x : TeaBlock) : (s.setBlock x).block = x := rfl
@[simp] theorem State.setBlock_inflight (s : State) (x : TeaBlock) : (s.setBlock x).inflight = s.inflight := rfl
@[simp] theorem State.setBlock_rdata (s : State) (x : TeaBlock) : (s.setBlock x).rdata = s.rdata := rfl
@[simp] theorem State.setBlock_schedule (s : State) (x : TeaBlock) : (s.setBlock x).schedule = s.schedule := rfl
@[simp] theorem State.setBlock_draws (s : State) (x : TeaBlock) : (s.setBlock x).draws = s.draws := rfl

/-! ### setInflight -/

@[simp] theorem State.setInflight_ctrl (s : State) (x : Option Instr) : (s.setInflight x).ctrl = s.ctrl := rfl
@[simp] theorem State.setInflight_status (s : State) (x : Option Instr) : (s.setInflight x).status = s.status := rfl
@[simp] theorem State.setInflight_arg (s : State) (x : Option Instr) : (s.setInflight x).arg = s.arg := rfl
@[simp] theorem State.setInflight_acc (s : State) (x : Option Instr) : (s.setInflight x).acc = s.acc := rfl
@[simp] theorem State.setInflight_key (s : State) (x : Option Instr) : (s.setInflight x).key = s.key := rfl
@[simp] theorem State.setInflight_block (s : State) (x : Option Instr) : (s.setInflight x).block = s.block := rfl
@[simp] theorem State.setInflight_inflight (s : State) (x : Option Instr) : (s.setInflight x).inflight = x := rfl
@[simp] theorem State.setInflight_rdata (s : State) (x : Option Instr) : (s.setInflight x).rdata = s.rdata := rfl
@[simp] theorem State.setInflight_schedule (s : State) (x : Option Instr) : (s.setInflight x).schedule = s.schedule := rfl
@[simp] theorem State.setInflight_draws (s : State) (x : Option Instr) : (s.setInflight x).draws = s.draws := rfl

/-! ### setRdata -/

@[simp] theorem State.setRdata_ctrl (s : State) (x : Word) : (s.setRdata x).ctrl = s.ctrl := rfl
@[simp] theorem State.setRdata_status (s : State) (x : Word) : (s.setRdata x).status = s.status := rfl
@[simp] theorem State.setRdata_arg (s : State) (x : Word) : (s.setRdata x).arg = s.arg := rfl
@[simp] theorem State.setRdata_acc (s : State) (x : Word) : (s.setRdata x).acc = s.acc := rfl
@[simp] theorem State.setRdata_key (s : State) (x : Word) : (s.setRdata x).key = s.key := rfl
@[simp] theorem State.setRdata_block (s : State) (x : Word) : (s.setRdata x).block = s.block := rfl
@[simp] theorem State.setRdata_inflight (s : State) (x : Word) : (s.setRdata x).inflight = s.inflight := rfl
@[simp] theorem State.setRdata_rdata (s : State) (x : Word) : (s.setRdata x).rdata = x := rfl
@[simp] theorem State.setRdata_schedule (s : State) (x : Word) : (s.setRdata x).schedule = s.schedule := rfl
@[simp] theorem State.setRdata_draws (s : State) (x : Word) : (s.setRdata x).draws = s.draws := rfl

/-! ### setSchedule -/

@[simp] theorem State.setSchedule_ctrl (s : State) (x : List Turn) : (s.setSchedule x).ctrl = s.ctrl := rfl
@[simp] theorem State.setSchedule_status (s : State) (x : List Turn) : (s.setSchedule x).status = s.status := rfl
@[simp] theorem State.setSchedule_arg (s : State) (x : List Turn) : (s.setSchedule x).arg = s.arg := rfl
@[simp] theorem State.setSchedule_acc (s : State) (x : List Turn) : (s.setSchedule x).acc = s.acc := rfl
@[simp] theorem State.setSchedule_key (s : State) (x : List Turn) : (s.setSchedule x).key = s.key := rfl
@[simp] theorem State.setSchedule_block (s : State) (x : List Turn) : (s.setSchedule x).block = s.block := rfl
@[simp] theorem State.setSchedule_inflight (s : State) (x : List Turn) : (s.setSchedule x).inflight = s.inflight := rfl
@[simp] theorem State.setSchedule_rdata (s : State) (x : List Turn) : (s.setSchedule x).rdata = s.rdata := rfl
@[simp] theorem State.setSchedule_schedule (s : State) (x : List Turn) : (s.setSchedule x).schedule = x := rfl
@[simp] theorem State.setSchedule_draws (s : State) (x : List Turn) : (s.setSchedule x).draws = s.draws := rfl

/-! ### setDraws -/

@[simp] theorem State.setDraws_ctrl (s : State) (x : Nat) : (s.setDraws x).ctrl = s.ctrl := rfl
@[simp] theorem State.setDraws_status (s : State) (x : Nat) : (s.setDraws x).status = s.status := rfl
@[simp] theorem State.setDraws_arg (s : State) (x : Nat) : (s.setDraws x).arg = s.arg := rfl
@[simp] theorem State.setDraws_acc (s : State) (x : Nat) : (s.setDraws x).acc = s.acc := rfl
@[simp] theorem State.setDraws_key (s : State) (x : Nat) : (s.setDraws x).key = s.key := rfl
@[simp] theorem State.setDraws_block (s : State) (x : Nat) : (s.setDraws x).block = s.block := rfl
@[simp] theorem State.setDraws_inflight (s : State) (x : Nat) : (s.setDraws x).inflight = s.inflight := rfl
@[simp] theorem State.setDraws_rdata (s : State) (x : Nat) : (s.setDraws x).rdata = s.rdata := rfl
@[simp] theorem State.setDraws_schedule (s : State) (x : Nat) : (s.setDraws x).schedule = s.schedule := rfl
@[simp] theorem State.setDraws_draws (s : State) (x : Nat) : (s.setDraws x).draws = x := rfl

/-! ### accept -/

@[simp] theorem State.accept_ctrl (s : State) (i : Instr) : (s.accept i).ctrl = s.ctrl := rfl
@[simp] theorem State.accept_status (s : State) (i : Instr) : (s.accept i).status = statusAccepted s.status := rfl
@[simp] theorem State.accept_arg (s : State) (i : Instr) : (s.accept i).arg = s.arg := rfl
@[simp] theorem State.accept_acc (s : State) (i : Instr) : (s.accept i).acc = s.acc := rfl
@[simp] theorem State.accept_key (s : State) (i : Instr) : (s.accept i).key = s.key := rfl
@[simp] theorem State.accept_block (s : State) (i : Instr) : (s.accept i).block = s.block := rfl
@[simp] theorem State.accept_inflight (s : State) (i : Instr) : (s.accept i).inflight = some i := rfl
@[simp] theorem State.accept_rdata (s : State) (i : Instr) : (s.accept i).rdata = s.rdata := rfl
@[simp] theorem State.accept_schedule (s : State) (i : Instr) : (s.accept i).schedule = s.schedule := rfl
@[simp] theorem State.accept_draws (s : State) (i : Instr) : (s.accept i).draws = s.draws := rfl

/-! ### complete -/

@[simp] theorem State.complete_ctrl (s : State) : (s.complete).ctrl = s.ctrl := rfl
@[simp] theorem State.complete_status (s : State) : (s.complete).status = statusCompleted s.status := rfl
@[simp] theorem State.complete_arg (s : State) : (s.complete).arg = s.arg := rfl
@[simp] theorem State.complete_acc (s : State) : (s.complete).acc = s.acc := rfl
@[simp] theorem State.complete_key (s : State) : (s.complete).key = s.key := rfl
@[simp] theorem State.complete_block (s : State) : (s.complete).block = s.block := rfl
@[simp] theorem State.complete_inflight (s : State) : (s.complete).inflight = none := rfl
@[simp] theorem State.complete_rdata (s : State) : (s.complete).rdata = s.rdata := rfl
@[simp] theorem State.complete_schedule (s : State) : (s.complete).schedule = s.schedule := rfl
@[simp] theorem State.complete_draws (s : State) : (s.complete).draws = s.draws := rfl

/-! ### raiseIllegal -/

@[simp] theorem State.raiseIllegal_ctrl (s : State) : (s.raiseIllegal).ctrl = s.ctrl := rfl
@[simp] theorem State.raiseIllegal_status (s : State) : (s.raiseIllegal).status = statusIllegal s.status := rfl
@[simp] theorem State.raiseIllegal_arg (s : State) : (s.raiseIllegal).arg = s.arg := rfl
@[simp] theorem State.raiseIllegal_acc (s : State) : (s.raiseIllegal).acc = s.acc := rfl
@[simp] theorem State.raiseIllegal_key (s : State) : (s.raiseIllegal).key = s.key := rfl
@[simp] theorem State.raiseIllegal_block (s : State) : (s.raiseIllegal).block = s.block := rfl
@[simp] theorem State.raiseIllegal_inflight (s : State) : (s.raiseIllegal).inflight = s.inflight := rfl
@[simp] theorem State.raiseIllegal_rdata (s : State) : (s.raiseIllegal).rdata = s.rdata := rfl
@[simp] theorem State.raiseIllegal_schedule (s : State) : (s.raiseIllegal).schedule = s.schedule := rfl
@[simp] theorem State.raiseIllegal_draws (s : State) : (s.raiseIllegal).draws = s.draws := rfl

/-! ### raiseBusy -/

@[simp] theorem State.raiseBusy_ctrl (s : State) : (s.raiseBusy).ctrl = s.ctrl := rfl
@[simp] theorem State.raiseBusy_status (s : State) : (s.raiseBusy).status = statusBusyError s.status := rfl
@[simp] theorem State.raiseBusy_arg (s : State) : (s.raiseBusy).arg = s.arg := rfl
@[simp] theorem State.raiseBusy_acc (s : State) : (s.raiseBusy).acc = s.acc := rfl
@[simp] theorem State.raiseBusy_key (s : State) : (s.raiseBusy).key = s.key := rfl
@[simp] theorem State.raiseBusy_block (s : State) : (s.raiseBusy).block = s.block := rfl
@[simp] theorem State.raiseBusy_inflight (s : State) : (s.raiseBusy).inflight = s.inflight := rfl
@[simp] theorem State.raiseBusy_rdata (s : State) : (s.raiseBusy).rdata = s.rdata := rfl
@[simp] theorem State.raiseBusy_schedule (s : State) : (s.raiseBusy).schedule = s.schedule := rfl
@[simp] theorem State.raiseBusy_draws (s : State) : (s.raiseBusy).draws = s.draws := rfl

/-! ### advance -/

@[simp] theorem State.advance_ctrl (s : State) : (s.advance).ctrl = s.ctrl := rfl
@[simp] theorem State.advance_status (s : State) : (s.advance).status = s.status := rfl
@[simp] theorem State.advance_arg (s : State) : (s.advance).arg = s.arg := rfl
@[simp] theorem State.advance_acc (s : State) : (s.advance).acc = s.acc := rfl
@[simp] theorem State.advance_key (s : State) : (s.advance).key = s.key := rfl
@[simp] theorem State.advance_block (s : State) : (s.advance).block = s.block := rfl
@[simp] theorem State.advance_inflight (s : State) : (s.advance).inflight = s.inflight := rfl
@[simp] theorem State.advance_rdata (s : State) : (s.advance).rdata = 0 := rfl
@[simp] theorem State.advance_schedule (s : State) : (s.advance).schedule = s.schedule.tail := rfl
@[simp] theorem State.advance_draws (s : State) : (s.advance).draws = s.draws := rfl

/-! ### withTurn -/

@[simp] theorem State.withTurn_ctrl (s : State) (t : Turn) : (s.withTurn t).ctrl = s.ctrl := rfl
@[simp] theorem State.withTurn_status (s : State) (t : Turn) : (s.withTurn t).status = s.status := rfl
@[simp] theorem State.withTurn_arg (s : State) (t : Turn) : (s.withTurn t).arg = s.arg := rfl
@[simp] theorem State.withTurn_acc (s : State) (t : Turn) : (s.withTurn t).acc = s.acc := rfl
@[simp] theorem State.withTurn_key (s : State) (t : Turn) : (s.withTurn t).key = s.key := rfl
@[simp] theorem State.withTurn_block (s : State) (t : Turn) : (s.withTurn t).block = s.block := rfl
@[simp] theorem State.withTurn_inflight (s : State) (t : Turn) : (s.withTurn t).inflight = s.inflight := rfl
@[simp] theorem State.withTurn_rdata (s : State) (t : Turn) : (s.withTurn t).rdata = s.rdata := rfl
@[simp] theorem State.withTurn_schedule (s : State) (t : Turn) : (s.withTurn t).schedule = t :: s.schedule := rfl
@[simp] theorem State.withTurn_draws (s : State) (t : Turn) : (s.withTurn t).draws = s.draws := rfl

/-! ### doReset -/

@[simp] theorem State.doReset_ctrl (s : State) : (s.doReset).ctrl = ⟨false, false⟩ := rfl
@[simp] theorem State.doReset_status (s : State) : (s.doReset).status = ⟨false, false, false, false⟩ := rfl
@[simp] theorem State.doReset_arg (s : State) : (s.doReset).arg = 0 := rfl
@[simp] theorem State.doReset_acc (s : State) : (s.doReset).acc = 0xFFFFFFFFFFFFFFFF := rfl
@[simp] theorem State.doReset_key (s : State) : (s.doReset).key = ⟨0, 0, 0, 0⟩ := rfl
@[simp] theorem State.doReset_block (s : State) : (s.doReset).block = ⟨0, 0⟩ := rfl
@[simp] theorem State.doReset_inflight (s : State) : (s.doReset).inflight = none := rfl
@[simp] theorem State.doReset_rdata (s : State) : (s.doReset).rdata = 0 := rfl
@[simp] theorem State.doReset_schedule (s : State) : (s.doReset).schedule = s.schedule := rfl
@[simp] theorem State.doReset_draws (s : State) : (s.doReset).draws = s.draws := rfl

/-! ### Status updates -/

@[simp] theorem statusAccepted_busy (st : Status) : (statusAccepted st).busy = true := rfl
@[simp] theorem statusAccepted_done (st : Status) : (statusAccepted st).done = false := rfl
@[simp] theorem statusAccepted_errIllegal (st : Status) : (statusAccepted st).errIllegal = st.errIllegal := rfl
@[simp] theorem statusAccepted_errBusy (st : Status) : (statusAccepted st).errBusy = st.errBusy := rfl
@[simp] theorem statusCompleted_busy (st : Status) : (statusCompleted st).busy = false := rfl
@[simp] theorem statusCompleted_done (st : Status) : (statusCompleted st).done = true := rfl
@[simp] theorem statusCompleted_errIllegal (st : Status) : (statusCompleted st).errIllegal = st.errIllegal := rfl
@[simp] theorem statusCompleted_errBusy (st : Status) : (statusCompleted st).errBusy = st.errBusy := rfl
@[simp] theorem statusIllegal_busy (st : Status) : (statusIllegal st).busy = st.busy := rfl
@[simp] theorem statusIllegal_done (st : Status) : (statusIllegal st).done = true := rfl
@[simp] theorem statusIllegal_errIllegal (st : Status) : (statusIllegal st).errIllegal = true := rfl
@[simp] theorem statusIllegal_errBusy (st : Status) : (statusIllegal st).errBusy = st.errBusy := rfl
@[simp] theorem statusBusyError_busy (st : Status) : (statusBusyError st).busy = st.busy := rfl
@[simp] theorem statusBusyError_done (st : Status) : (statusBusyError st).done = st.done := rfl
@[simp] theorem statusBusyError_errIllegal (st : Status) : (statusBusyError st).errIllegal = st.errIllegal := rfl
@[simp] theorem statusBusyError_errBusy (st : Status) : (statusBusyError st).errBusy = true := rfl
@[simp] theorem statusW1C_busy (st : Status) (v : Word) : (statusW1C st v).busy = st.busy := rfl
@[simp] theorem statusW1C_done (st : Status) (v : Word) : (statusW1C st v).done = (st.done && !v.getLsbD 1) := rfl
@[simp] theorem statusW1C_errIllegal (st : Status) (v : Word) : (statusW1C st v).errIllegal = (st.errIllegal && !v.getLsbD 2) := rfl
@[simp] theorem statusW1C_errBusy (st : Status) (v : Word) : (statusW1C st v).errBusy = (st.errBusy && !v.getLsbD 3) := rfl

/-! ### Extensionality -/

/-- Two states with equal fields are equal. -/
theorem State.eq_of_fields {s t : State} (h1 : s.ctrl = t.ctrl) (h2 : s.status = t.status) (h3 : s.arg = t.arg)
    (h4 : s.acc = t.acc) (h5 : s.key = t.key) (h6 : s.block = t.block) (h7 : s.inflight = t.inflight)
    (h8 : s.rdata = t.rdata) (h9 : s.schedule = t.schedule) (h10 : s.draws = t.draws) : s = t := by
  cases s
  cases t
  simp_all

end Sys2Proof.Machine
end

