-- ==== Sys2Proof/Laws/Ops.lean ====
section
/-! SUPPORT. What the shared operations can do, said once each: whose turn it is and what a step then is, what a host
event is, and every outcome of a read, a write and an issue. -/

namespace Sys2Proof.Machine

/-! ### Turns and steps -/

theorem nextStep_empty (s : State) (h : s.schedule = []) : nextStep s = engineTurn s := by
  simp [nextStep, h]

theorem nextStep_engine (s : State) (l : List Turn) (h : s.schedule = .engine :: l) :
    nextStep s = engineTurn s := by
  simp [nextStep, h]

theorem nextStep_host (s : State) (e : HostEvent) (l : List Turn) (h : s.schedule = .host e :: l) :
    nextStep s = .outside e := by
  simp [nextStep, h]

theorem engineTurn_some (s : State) (i : Instr) (h : s.inflight = some i) : engineTurn s = .command i := by
  simp [engineTurn, h]

theorem engineTurn_none (s : State) (h : s.inflight = none) : engineTurn s = .quiet := by
  simp [engineTurn, h]

theorem step_of_command (s : State) (i : Instr) (h : nextStep s = .command i) : step s = exec i s.advance := by
  simp [step, h]

theorem step_of_outside (s : State) (e : HostEvent) (h : nextStep s = .outside e) :
    step s = .next (hostEvent s.advance e) := by
  simp [step, h]

theorem step_of_quiet (s : State) (h : nextStep s = .quiet) : step s = .next s.advance := by
  simp [step, h]

/-- Everything a step can be. -/
theorem step_cases (s : State) :
    (∃ i, s.inflight = some i ∧ nextStep s = .command i ∧ step s = exec i s.advance) ∨
    (∃ e l, s.schedule = .host e :: l ∧ nextStep s = .outside e ∧ step s = .next (hostEvent s.advance e)) ∨
    (s.inflight = none ∧ nextStep s = .quiet ∧ step s = .next s.advance) := by
  rcases hs : s.schedule with _ | ⟨_ | e, l⟩
  · cases hi : s.inflight with
    | none =>
      have h := (nextStep_empty s hs).trans (engineTurn_none s hi)
      exact .inr (.inr ⟨rfl, h, step_of_quiet s h⟩)
    | some i =>
      have h := (nextStep_empty s hs).trans (engineTurn_some s i hi)
      exact .inl ⟨i, rfl, h, step_of_command s i h⟩
  · cases hi : s.inflight with
    | none =>
      have h := (nextStep_engine s l hs).trans (engineTurn_none s hi)
      exact .inr (.inr ⟨rfl, h, step_of_quiet s h⟩)
    | some i =>
      have h := (nextStep_engine s l hs).trans (engineTurn_some s i hi)
      exact .inl ⟨i, rfl, h, step_of_command s i h⟩
  · exact .inr (.inl ⟨e, l, rfl, nextStep_host s e l hs, step_of_outside s e (nextStep_host s e l hs)⟩)

/-- The step of a scheduled host event. -/
theorem step_host (s : State) (e : HostEvent) (l : List Turn) (h : s.schedule = .host e :: l) :
    step s = .next (hostEvent s.advance e) :=
  step_of_outside s e (nextStep_host s e l h)

/-- Several steps are the first one and the rest. -/
theorem run_succ_eq (n : Nat) (s : State) :
    run (n + 1) s =
      match step s with
      | .next t => run n t
      | .fault r => .fault r
      | .refused r => .refused r := rfl

/-- The first of several steps, where it answers a next state. -/
theorem run_succ (n : Nat) {s t : State} (h : step s = .next t) : run (n + 1) s = run n t := by
  rw [run_succ_eq, h]

/-- Steps taken in two parts. -/
theorem run_add (m n : Nat) {s t : State} (h : run m s = .next t) : run (m + n) s = run n t := by
  induction m generalizing s with
  | zero =>
    cases h
    rw [Nat.zero_add]
  | succ m ih =>
    rw [Nat.succ_add]
    rw [run_succ_eq] at h ⊢
    cases hs : step s with
    | next u =>
      rw [hs] at h
      exact ih h
    | fault r => simp [hs] at h
    | refused r => simp [hs] at h

/-- The host's run of the machine is `run`. -/
theorem core_run_eq_run (n : Nat) (s : State) : Sys2Proof.core.run n s = run n s := by
  induction n generalizing s with
  | zero => rfl
  | succ n ih =>
    have hrun := run_succ_eq n s
    have hcore := Host.Core.run.eq_2 Sys2Proof.core s n
    cases h : step s with
    | next t =>
      rw [h] at hrun
      rw [show Sys2Proof.core.step s = .next t from h] at hcore
      exact hcore.trans ((ih t).trans hrun.symm)
    | fault r => cases r
    | refused r =>
      rw [h] at hrun
      rw [show Sys2Proof.core.step s = .refused r from h] at hcore
      exact hcore.trans hrun.symm

/-! ### Events from outside -/

/-- An event is the access it delivers, a reset, or nothing. -/
theorem hostEvent_cases (s : State) (e : HostEvent) :
    (∃ a, e.delivers = some a ∧ e.isReset = false ∧ hostEvent s e = access s a) ∨
    (e.delivers = none ∧ e.isReset = true ∧ hostEvent s e = s.doReset) ∨
    (e.delivers = none ∧ e.isReset = false ∧ hostEvent s e = s) := by
  cases e with
  | access a => exact .inl ⟨a, rfl, rfl, rfl⟩
  | reset d => exact .inr (.inl ⟨rfl, rfl, rfl⟩)
  | bus addr op =>
    cases hw : windowOffset addr with
    | none => exact .inr (.inr ⟨by simp [HostEvent.delivers, hw], rfl, by simp [hostEvent, busAccess, hw]⟩)
    | some off =>
      cases op with
      | read => exact .inl ⟨.read off, by simp [HostEvent.delivers, hw], rfl, by simp [hostEvent, busAccess, hw, access]⟩
      | write v =>
        exact .inl ⟨.write off v, by simp [HostEvent.delivers, hw], rfl, by simp [hostEvent, busAccess, hw, access]⟩

/-! ### Reads -/

/-- A read changes `rdata` and the count of open values, and nothing else. -/
theorem regRead_eq (s : State) (off : Offset) :
    ∃ v n, regRead s off = (s.setRdata v).setDraws n ∧
      ((s.status.busy && openWhileBusy (slotOf off)) = false → v = slotValue s (slotOf off) ∧ n = s.draws) := by
  unfold regRead
  split
  · rename_i h
    exact ⟨Config.busyRead s.draws, s.draws + 1, rfl, fun h' => by simp [h] at h'⟩
  · exact ⟨slotValue s (slotOf off), s.draws, rfl, fun _ => ⟨rfl, rfl⟩⟩

/-! ### Writes -/

theorem regWrite_refused (s : State) (off : Offset) (v : Word)
    (h : (s.status.busy && busyGuarded (slotOf off)) = true) : regWrite s off v = s.raiseBusy := by
  simp [regWrite, h]

theorem regWrite_stored (s : State) (off : Offset) (v : Word)
    (h : (s.status.busy && busyGuarded (slotOf off)) = false) :
    regWrite s off v = storeSlot s v (slotOf off) := by
  simp [regWrite, h]

/-- A word decodes to a command exactly when RSVD is 0 and the opcode map has the command at its OPCODE. -/
theorem decode_eq_ok (w : Word) (i : Instr) :
    decode w = .ok i ↔ (fieldsOf w).rsvd = 0 ∧ opcodeMap.lookup (fieldsOf w).opcode = some i := by
  unfold decode decodeFields
  cases h : opcodeMap.lookup (fieldsOf w).opcode <;> cases h0 : (fieldsOf w).rsvd == 0 <;> simp_all

/-- An issued word is accepted or rejected. -/
theorem issue_cases (s : State) (w : Word) :
    (∃ i, decode w = .ok i ∧ issue s w = s.accept i) ∨
    (∃ r, decode w = .error r ∧ issue s w = s.raiseIllegal) := by
  cases h : decode w with
  | ok i => exact .inl ⟨i, rfl, by simp [issue, h]⟩
  | error r => exact .inr ⟨r, rfl, by simp [issue, h]⟩

/-- The slot an offset names is decided by its word index. -/
theorem slotOf_eq_of_wordIndex {off off' : Offset} (h : wordIndex off = wordIndex off') :
    slotOf off = slotOf off' := by
  simp only [wordIndex] at h
  simp only [slotOf, h]

/-- The listed offset of a slot names it (10_state.md R21). -/
theorem slotOf_offsetOf (r : Slot) : slotOf (offsetOf r) = r := by
  cases r <;> rfl

/-- An offset names a slot exactly when it has the word index the slot is listed at (10_state.md R21). -/
theorem slotOf_eq_iff (off : Offset) (r : Slot) : slotOf off = r ↔ wordIndex off = wordIndex (offsetOf r) := by
  revert off
  cases r <;> decide

/-- The word index of an offset, from the slot it names. -/
theorem wordIndex_eq (off : Offset) : wordIndex off = wordIndex (offsetOf (slotOf off)) :=
  (slotOf_eq_iff off _).1 rfl

/-! ### Commands -/

/-- What a command computes before the shared completion. -/
def effect (i : Instr) (s : State) : State :=
  match i with
  | .nop => s
  | .crcInit => s.setAcc crcInitValue
  | .crcUpd8 => s.setAcc (foldBytes s.acc [argByte0 s.arg])
  | .crcUpd16 => s.setAcc (foldBytes s.acc [argByte0 s.arg, argByte1 s.arg])
  | .crcUpd32 => s.setAcc (foldBytes s.acc [argByte0 s.arg, argByte1 s.arg, argByte2 s.arg, argByte3 s.arg])
  | .teaEnc => s.setBlock (teaEncrypt s.key s.block)
  | .teaDec => s.setBlock (teaDecrypt s.key s.block)

/-- Every command is its effect, then the shared completion (30_encoding.md R91). -/
theorem exec_eq_effect (i : Instr) (s : State) : exec i s = .next (effect i s).complete := by
  cases i <;> rfl

/-- A command's effect touches ACC and the TEA block only. -/
theorem effect_eq (i : Instr) (s : State) : ∃ a b, effect i s = (s.setAcc a).setBlock b := by
  cases i with
  | nop => exact ⟨s.acc, s.block, rfl⟩
  | crcInit => exact ⟨crcInitValue, s.block, rfl⟩
  | crcUpd8 => exact ⟨foldBytes s.acc [argByte0 s.arg], s.block, rfl⟩
  | crcUpd16 => exact ⟨foldBytes s.acc [argByte0 s.arg, argByte1 s.arg], s.block, rfl⟩
  | crcUpd32 =>
    exact ⟨foldBytes s.acc [argByte0 s.arg, argByte1 s.arg, argByte2 s.arg, argByte3 s.arg], s.block, rfl⟩
  | teaEnc => exact ⟨s.acc, teaEncrypt s.key s.block, rfl⟩
  | teaDec => exact ⟨s.acc, teaDecrypt s.key s.block, rfl⟩

end Sys2Proof.Machine
end

