-- ==== Sys2Proof/Laws/PerInstr.lean ====
section
/-! SUPPORT. Per-command facts about the command words, one lemma per constructor. -/

namespace Sys2Proof.Laws

/-- The command's word is legal by both checks of 30_encoding.md R81, and the decoder reads the command back from it,
also in the numbering of spec/opcode_table.json. -/
def WordRoundTrip.Statement (i : Instr) : Prop :=
  i.wf = true ∧ (fieldsOf (encode i)).wf = true ∧ decode (encode i) = .ok i ∧
    decodeTableWord 32 (encode i).toNat = some i

theorem WordRoundTrip.nop : WordRoundTrip.Statement .nop := ⟨rfl, by decide, by decide, by decide⟩
theorem WordRoundTrip.crcInit : WordRoundTrip.Statement .crcInit := ⟨rfl, by decide, by decide, by decide⟩
theorem WordRoundTrip.crcUpd8 : WordRoundTrip.Statement .crcUpd8 := ⟨rfl, by decide, by decide, by decide⟩
theorem WordRoundTrip.crcUpd16 : WordRoundTrip.Statement .crcUpd16 := ⟨rfl, by decide, by decide, by decide⟩
theorem WordRoundTrip.crcUpd32 : WordRoundTrip.Statement .crcUpd32 := ⟨rfl, by decide, by decide, by decide⟩
theorem WordRoundTrip.teaEnc : WordRoundTrip.Statement .teaEnc := ⟨rfl, by decide, by decide, by decide⟩
theorem WordRoundTrip.teaDec : WordRoundTrip.Statement .teaDec := ⟨rfl, by decide, by decide, by decide⟩

end Sys2Proof.Laws
end

