-- ==== Sys2Proof/Laws/Units.lean ====
section
/-! SUPPORT. The recursions of the two computation units, one lemma per case. -/

namespace Sys2Proof.Machine

@[simp] theorem crcRounds_zero (c : DWord) : crcRounds 0 c = c := rfl

theorem crcRounds_succ (n : Nat) (c : DWord) : crcRounds (n + 1) c = crcRounds n (crcRound c) :=
  Function.iterate_succ_apply crcRound n c

theorem crcRounds_succ_last (n : Nat) (c : DWord) : crcRounds (n + 1) c = crcRound (crcRounds n c) :=
  Function.iterate_succ_apply' crcRound n c

@[simp] theorem foldBytes_nil (a : DWord) : foldBytes a [] = a := rfl

@[simp] theorem foldBytes_cons (a : DWord) (b : Byte) (m : List Byte) :
    foldBytes a (b :: m) = foldBytes (fold a b) m := rfl

theorem foldBytes_append (a : DWord) (m n : List Byte) :
    foldBytes a (m ++ n) = foldBytes (foldBytes a m) n :=
  List.foldl_append

@[simp] theorem teaEncLoop_zero (k : TeaKey) (r : TeaRegs) : teaEncLoop k 0 r = r := rfl

theorem teaEncLoop_succ (k : TeaKey) (n : Nat) (r : TeaRegs) :
    teaEncLoop k (n + 1) r = teaEncLoop k n (teaEncRound k r) :=
  Function.iterate_succ_apply (teaEncRound k) n r

theorem teaEncLoop_succ_last (k : TeaKey) (n : Nat) (r : TeaRegs) :
    teaEncLoop k (n + 1) r = teaEncRound k (teaEncLoop k n r) :=
  Function.iterate_succ_apply' (teaEncRound k) n r

@[simp] theorem teaDecLoop_zero (k : TeaKey) (r : TeaRegs) : teaDecLoop k 0 r = r := rfl

theorem teaDecLoop_succ (k : TeaKey) (n : Nat) (r : TeaRegs) :
    teaDecLoop k (n + 1) r = teaDecLoop k n (teaDecRound k r) :=
  Function.iterate_succ_apply (teaDecRound k) n r

theorem teaDecLoop_succ_last (k : TeaKey) (n : Nat) (r : TeaRegs) :
    teaDecLoop k (n + 1) r = teaDecRound k (teaDecLoop k n r) :=
  Function.iterate_succ_apply' (teaDecRound k) n r

/-- What one encryption round does to `sum`. -/
@[simp] theorem teaEncRound_sum (k : TeaKey) (r : TeaRegs) : (teaEncRound k r).sum = r.sum + teaDelta := rfl

/-- What one decryption round does to `sum`. -/
@[simp] theorem teaDecRound_sum (k : TeaKey) (r : TeaRegs) : (teaDecRound k r).sum = r.sum - teaDelta := rfl

/-! ### The halves of ACC -/

theorem getLsbD_halves (h l : Word) (i : Nat) :
    BitVec.getLsbD (h ++ l : DWord) i = if i < 32 then l.getLsbD i else h.getLsbD (i - 32) :=
  (BitVec.getLsbD_append (x := h) (y := l)).trans (by cases decide (i < 32) <;> simp_all)

@[simp] theorem accLo_append (h l : Word) : accLo (h ++ l) = l := by
  apply BitVec.eq_of_getLsbD_eq
  intro i hi
  rw [accLo, BitVec.getLsbD_extractLsb', getLsbD_halves]
  simp [hi]

@[simp] theorem accHi_append (h l : Word) : accHi (h ++ l) = h := by
  apply BitVec.eq_of_getLsbD_eq
  intro i hi
  rw [accHi, BitVec.getLsbD_extractLsb', getLsbD_halves]
  simp [hi]

/-- CRC_HI:CRC_LO is ACC (10_state.md R33). -/
@[simp] theorem accHi_append_accLo (acc : DWord) : accHi acc ++ accLo acc = acc := by
  apply BitVec.eq_of_getLsbD_eq
  intro i hi
  refine (getLsbD_halves _ _ i).trans ?_
  rw [accLo, accHi, BitVec.getLsbD_extractLsb', BitVec.getLsbD_extractLsb']
  by_cases h : i < 32
  · simp [h]
  · simp [h, show i - 32 < 32 by omega, show 32 + (i - 32) = i by omega]

@[simp] theorem accLo_withAccLo (acc : DWord) (v : Word) : accLo (withAccLo acc v) = v := accLo_append _ _

@[simp] theorem accHi_withAccLo (acc : DWord) (v : Word) : accHi (withAccLo acc v) = accHi acc := accHi_append _ _

@[simp] theorem accLo_withAccHi (acc : DWord) (v : Word) : accLo (withAccHi acc v) = accLo acc := accLo_append _ _

@[simp] theorem accHi_withAccHi (acc : DWord) (v : Word) : accHi (withAccHi acc v) = v := accHi_append _ _

end Sys2Proof.Machine
end

