-- ==== Sys2Proof/Tests/Slice0.lean ====
section
/-! SUPPORT. The model's own tests, with values from 95_test_vectors.md and the worked examples of the rules, and a
witness for the hypotheses of each statement. -/

namespace Sys2Proof.Tests

open Sys2Proof Sys2Proof.Machine

/-! ### Helpers -/

/-- The next state of an outcome. -/
def nextOf : Host.Outcome State Fault Refusal → Option State
  | .next s => some s
  | .fault _ => none
  | .refused _ => none

/-- The reset state with a command in flight. -/
def busyWith (i : Instr) : State := State.reset.accept i

/-- A state with a list of turns to come. -/
def withTurns (s : State) (l : List Turn) : State := s.setSchedule l

/-- A write at an offset as a turn. -/
def writeAt (off : Offset) (v : Word) : Turn := .host (.access (.write off v))

/-- A read at an offset as a turn. -/
def readAt (off : Offset) : Turn := .host (.access (.read off))

/-- The reset state with ACC and ARG set. -/
def withCrc (acc : DWord) (arg : Word) : State := (State.reset.setAcc acc).setArg arg

/-- The reset state with a key and a block. -/
def withTea (k : TeaKey) (b : TeaBlock) : State := (State.reset.setKey k).setBlock b

/-- ACC after a command. -/
def accAfter (i : Instr) (s : State) : Option DWord := (nextOf (exec i s)).map State.acc

/-- The block after a command. -/
def blockAfter (i : Instr) (s : State) : Option TeaBlock := (nextOf (exec i s)).map State.block

/-- STATUS, read as a word, after one step. -/
def statusAfter (s : State) : Option Word := (nextOf (step s)).map fun t => statusWord t.status

/-- `rdata` after one step. -/
def rdataAfter (s : State) : Option Word := (nextOf (step s)).map State.rdata

/-! ### Well-formedness and decoding (30_encoding.md R80, R81, R84, R85) -/

theorem test_wf_refuses_reserved : CommandWord.wf ⟨0x01, 0x000001⟩ = false := by decide
theorem test_wf_refuses_unassigned : CommandWord.wf ⟨0x05, 0x000000⟩ = false := by decide
theorem test_wf_accepts_each : ∀ i : Fin 7,
    CommandWord.wf ⟨[0x00, 0x01, 0x02, 0x03, 0x04, 0x10, 0x11].get i, 0⟩ = true := by decide

/-- Words written out bit by bit from the rows of spec/opcode_table.json. -/
theorem test_decode_nop : decode 0b00000000000000000000000000000000 = .ok .nop := by rfl
theorem test_decode_crcInit : decode 0b00000000000000000000000000000001 = .ok .crcInit := by rfl
theorem test_decode_crcUpd8 : decode 0b00000000000000000000000000000010 = .ok .crcUpd8 := by rfl
theorem test_decode_crcUpd16 : decode 0b00000000000000000000000000000011 = .ok .crcUpd16 := by rfl
theorem test_decode_crcUpd32 : decode 0b00000000000000000000000000000100 = .ok .crcUpd32 := by rfl
theorem test_decode_teaEnc : decode 0b00000000000000000000000000010000 = .ok .teaEnc := by rfl
theorem test_decode_teaDec : decode 0b00000000000000000000000000010001 = .ok .teaDec := by rfl

/-- X5, X6: unassigned opcodes. -/
theorem test_decode_unassigned :
    decode 0x00000005 = .error (.unassignedOpcode 0x05) ∧ decode 0x0000000F = .error (.unassignedOpcode 0x0F) ∧
    decode 0x00000012 = .error (.unassignedOpcode 0x12) ∧ decode 0x000000FF = .error (.unassignedOpcode 0xFF) :=
  ⟨rfl, rfl, rfl, rfl⟩

/-- X7, X8: reserved bits set. -/
theorem test_decode_reserved :
    decode 0x00000101 = .error (.reservedBitsSet 0x000001) ∧ decode 0x80000010 = .error (.reservedBitsSet 0x800000) :=
  ⟨rfl, rfl⟩

/-! ### Commands -/

/-- 42_control.md R150: STATUS 0x4 idle, 0x5 after the write, 0x6 after completion. -/
theorem test_nop_status :
    let s := State.reset.setStatus ⟨false, false, true, false⟩
    statusAfter (withTurns s [writeAt 0x0C 0]) = some 0x5 ∧
    (nextOf (exec .nop (s.accept .nop))).map (fun t => statusWord t.status) = some 0x6 := by decide

/-- C1. -/
theorem test_crcInit : accAfter .crcInit (withCrc 0x0123456789ABCDEF 0) = some 0xFFFFFFFFFFFFFFFF := by decide
/-- C4: ARG[31:8] ignored. -/
theorem test_crcUpd8_ignores_high_bits :
    accAfter .crcUpd8 (withCrc 0xFFFFFFFFFFFFFFFF 0xFFFFFF31) = some 0xD4895E3CB9E4412D := by decide +kernel
/-- C10: an arbitrary ACC. -/
theorem test_crcUpd8_arbitrary :
    accAfter .crcUpd8 (withCrc 0x0123456789ABCDEF 0x0000005A) = some 0xA854249BFA74ED0D := by decide +kernel
/-- C13: ARG[31:16] ignored. -/
theorem test_crcUpd16_ignores_high_bits :
    accAfter .crcUpd16 (withCrc 0xFFFFFFFFFFFFFFFF 0xABCD0041) = some 0x3082D3D92B4A257F := by decide +kernel
/-- C16: the low byte first. -/
theorem test_crcUpd16_order :
    accAfter .crcUpd16 (withCrc 0xFFFFFFFFFFFFFFFF 0x00004E2D) = some 0xD6E28227206B9E92 := by decide +kernel
/-- C17: the least significant byte first. -/
theorem test_crcUpd32_order :
    accAfter .crcUpd32 (withCrc 0xFFFFFFFFFFFFFFFF 0x34333231) = some 0xDE31064D7E008E2B := by decide +kernel
/-- C22. -/
theorem test_crcUpd32_from_zero :
    accAfter .crcUpd32 (withCrc 0 0x00000080) = some 0x7A092894E7201C5F := by decide +kernel
/-- T3: an asymmetric key. -/
theorem test_teaEnc : blockAfter .teaEnc
    (withTea ⟨0x01234567, 0x89ABCDEF, 0xFEDCBA98, 0x76543210⟩ ⟨0x01234567, 0x89ABCDEF⟩) =
      some ⟨0x17B5BA51, 0x98581091⟩ := by decide +kernel
/-- T7: the right shift is logical. -/
theorem test_teaEnc_logical_shift :
    blockAfter .teaEnc (withTea ⟨0, 0, 0, 0⟩ ⟨0x80000000, 0⟩) = some ⟨0x8781CE72, 0x034D3869⟩ := by decide +kernel
/-- T10: an asymmetric key. -/
theorem test_teaDec : blockAfter .teaDec
    (withTea ⟨0x01234567, 0x89ABCDEF, 0xFEDCBA98, 0x76543210⟩ ⟨0x01234567, 0x89ABCDEF⟩) =
      some ⟨0x5EF42076, 0xDE9A3D24⟩ := by decide +kernel
/-- T9. -/
theorem test_teaDec_zero :
    blockAfter .teaDec (withTea ⟨0, 0, 0, 0⟩ ⟨0, 0⟩) = some ⟨0x1423FF6D, 0x9216EF3A⟩ := by decide +kernel

/-- 95_test_vectors.md section 2.1: entries of the table. -/
theorem test_table :
    tableEntry 0x01 = 0x7AD870C830358979 ∧ tableEntry 0x80 = 0x95AC9329AC4BC9B5 ∧
    tableEntry 0x5B = 0x8632586ACA9A2710 ∧ tableEntry 0xFF = 0x29B7D047EFEC8728 := by decide +kernel

/-- 95_test_vectors.md section 2.2: the CRC of "123456789". -/
theorem test_crc64_check :
    crc64 [0x31, 0x32, 0x33, 0x34, 0x35, 0x36, 0x37, 0x38, 0x39] = 0xCAA717168609F281 := by decide +kernel

/-! ### Steps, status and errors (95_test_vectors.md section 2.4) -/

/-- X1 and X2. -/
theorem test_accept_and_complete_nop :
    statusAfter (withTurns .reset [writeAt 0x0C 0]) = some 0x1 ∧ statusAfter (busyWith .nop) = some 0x2 := by decide
/-- X5, X7. -/
theorem test_illegal_word :
    statusAfter (withTurns .reset [writeAt 0x0C 0x05]) = some 0x6 ∧
    statusAfter (withTurns .reset [writeAt 0x0C 0x101]) = some 0x6 := by decide
/-- X10: a CMD write while busy is not decoded. -/
theorem test_busy_cmd_not_decoded :
    statusAfter (withTurns (busyWith .crcUpd8) [writeAt 0x0C 0xFF]) = some 0x9 := by decide
/-- X11: ARG keeps its value while busy. -/
theorem test_busy_arg_write :
    (nextOf (step (withTurns ((busyWith .nop).setArg 0x31) [writeAt 0x10 0x32]))).map State.arg = some 0x31 := by decide
/-- X16, X18, X18a. -/
theorem test_status_w1c :
    statusAfter (withTurns (State.reset.setStatus ⟨false, true, true, false⟩) [writeAt 0x08 0x2]) = some 0x4 ∧
    statusAfter (withTurns (State.reset.setStatus ⟨false, true, true, true⟩) [writeAt 0x08 0xFFFFFFFE]) = some 0x0 ∧
    statusAfter (withTurns (State.reset.setStatus ⟨false, true, true, true⟩) [writeAt 0x08 0xFFFFFFF1]) = some 0xE := by
  decide
/-- X23 and X24: a completion and a CMD write in one cycle, both orders. -/
theorem test_same_cycle_both_orders :
    (nextOf (run 2 (withTurns (busyWith .nop) [.engine, writeAt 0x0C 0x1]))).map (fun t => (statusWord t.status, t.inflight)) =
      some (0x1, some .crcInit) ∧
    (nextOf (run 2 (withTurns (busyWith .nop) [writeAt 0x0C 0x1, .engine]))).map (fun t => (statusWord t.status, t.inflight)) =
      some (0xA, none) := by decide
/-- The irq table, 60_exceptions.md R166: CTRL = 1 masks the errors, CTRL = 2 masks DONE. -/
theorem test_irq :
    ((State.reset.setCtrl ⟨true, false⟩).setStatus ⟨false, false, true, true⟩).irq = false ∧
    ((State.reset.setCtrl ⟨true, false⟩).setStatus ⟨false, true, false, false⟩).irq = true ∧
    ((State.reset.setCtrl ⟨false, true⟩).setStatus ⟨true, true, false, false⟩).irq = false ∧
    ((State.reset.setCtrl ⟨false, true⟩).setStatus ⟨false, false, false, true⟩).irq = true := by decide

/-! ### Register access (95_test_vectors.md section 2.5) -/

/-- A6 and A1. -/
theorem test_ctrl_and_reserved :
    (nextOf (run 2 (withTurns .reset [writeAt 0x04 0xFFFFFFFF, readAt 0x04]))).map State.rdata = some 0x3 ∧
    rdataAfter (withTurns (withCrc 5 5) [readAt 0x38]) = some 0 := by decide
/-- A4: the key is stored and reads as 0. -/
theorem test_key_write_only :
    (nextOf (run 2 (withTurns .reset [writeAt 0x20 0xDEADBEEF, readAt 0x20]))).map (fun t => (t.key.k0, t.rdata)) =
      some (0xDEADBEEF, 0) := by decide
/-- A8 and A9: the halves of ACC. -/
theorem test_acc_halves :
    (nextOf (run 2 (withTurns .reset [writeAt 0x18 0x89ABCDEF, writeAt 0x1C 0x01234567]))).map State.acc =
      some 0x0123456789ABCDEF ∧
    rdataAfter (withTurns (withCrc 0x0123456789ABCDEF 0) [readAt 0x1C]) = some 0x01234567 := by decide
/-- A10: a misaligned offset. -/
theorem test_misaligned : (nextOf (step (withTurns .reset [writeAt 0x11 0x5A]))).map State.arg = some 0x5A := by decide
/-- A15: reset abandons the command. -/
theorem test_reset_abandons :
    (nextOf (run 2 (withTurns ((busyWith .teaEnc).setBlock ⟨1, 0⟩) [.host (.reset none), .engine]))).map
      (fun t => (t.block, t.inflight, statusWord t.status)) = some (⟨0, 0⟩, none, 0) := by decide
/-- A2 and A5: writes to ID and the reserved slots change nothing. -/
theorem test_ignored_writes :
    nextOf (step (withTurns .reset [writeAt 0x00 0xFFFFFFFF])) = some State.reset ∧
    nextOf (step (withTurns .reset [writeAt 0x14 0xFFFFFFFF])) = some State.reset := by decide

/-- The commands of spec/opcode_table.json as the first instruction after reset: each step completes. -/
theorem test_fetch_runs :
    statusAfter (State.reset.withFetchWord 32 0x00) = some 0x2 ∧
    (nextOf (step (State.reset.withFetchWord 32 0x02))).map State.acc = some 0x29482FB8101378D7 ∧
    (nextOf (step (State.reset.withFetchWord 32 0x10))).map State.block = some ⟨0x41EA3A0A, 0x94BAA940⟩ ∧
    statusAfter (State.reset.withFetchWord 32 0x05) = some 0x6 := by decide +kernel

/-! ### Witnesses: states and operands that meet the hypotheses of each statement -/

/-- Every word index is reached, each at its lowest and highest offset. -/
theorem witness_wordIndex :
    wordIndex 0x00 = 0 ∧ wordIndex 0x03 = 0 ∧ wordIndex 0x04 = 1 ∧ wordIndex 0x08 = 2 ∧ wordIndex 0x0C = 3 ∧
    wordIndex 0x0F = 3 ∧ wordIndex 0x10 = 4 ∧ wordIndex 0x14 = 5 ∧ wordIndex 0x18 = 6 ∧ wordIndex 0x1C = 7 ∧
    wordIndex 0x20 = 8 ∧ wordIndex 0x24 = 9 ∧ wordIndex 0x28 = 10 ∧ wordIndex 0x2C = 11 ∧ wordIndex 0x30 = 12 ∧
    wordIndex 0x34 = 13 ∧ wordIndex 0x38 = 14 ∧ wordIndex 0x3C = 15 ∧ wordIndex 0x3F = 15 := by decide

/-- The clauses of GuardedWriteWhileBusyIsRefused exclude each other and leave no index out; so do those of
WriteWhileIdleStoresItsRegister but for STATUS (2) and CMD (3), which have statements of their own. -/
theorem witness_write_clauses_disjoint : ∀ n : BitVec 4,
    ([[3, 4, 6, 7, 8, 9, 10, 11, 12, 13], [1], [2], [0, 5, 14, 15]].countP (fun l : List (BitVec 4) => n ∈ l)) = 1 ∧
    ([[0, 5, 14, 15], [1], [4], [6], [7], [8], [9], [10], [11], [12], [13], [2, 3]].countP
      (fun l : List (BitVec 4) => n ∈ l)) = 1 := by decide

/-- ResetSetsEveryRegister: a command in flight, and an access in the reset cycle. -/
theorem witness_reset_event :
    (withTurns (busyWith .teaEnc) [.host (.reset (some (.write 0x10 5)))]).schedule =
      .host (.reset (some (.write 0x10 5))) :: [] := rfl

/-- EveryStepKeepsBusyAndDoneConsistent: idle with DONE, and busy. -/
theorem witness_consistent :
    (State.reset.setStatus ⟨false, true, false, false⟩).Consistent ∧ (busyWith .crcUpd8).Consistent ∧
    (nextOf (step (busyWith .crcUpd8))).isSome = true := by decide +kernel

/-- IllegalWordWhileIdleIsRejected: each clause at its boundary values. -/
theorem witness_illegal_word :
    let s := withTurns .reset [writeAt 0x0F 0x00000100]
    wordIndex 0x0F = 3 ∧ s.status.busy = false ∧ s.schedule = .host (.access (.write 0x0F 0x00000100)) :: [] ∧
    (0x00000100 : Word).extractLsb' 8 24 ≠ 0 ∧
    5 ≤ ((0x00000005 : Word).extractLsb' 0 8).toNat ∧ ((0x0000000F : Word).extractLsb' 0 8).toNat ≤ 0x0F ∧
    0x12 ≤ ((0x00000012 : Word).extractLsb' 0 8).toNat ∧ 0x12 ≤ ((0x000000FF : Word).extractLsb' 0 8).toNat := by decide

/-- LegalWordWhileIdleIsAccepted, CmdWriteThenEngineRunsDecodedCommand. -/
theorem witness_legal_word :
    let s := withTurns .reset [writeAt 0x0C (encode .teaDec), .engine]
    wordIndex 0x0C = 3 ∧ s.status.busy = false ∧ decode (encode .teaDec) = .ok .teaDec ∧ Instr.teaDec.wf = true ∧
    s.schedule = .host (.access (.write 0x0C (encode .teaDec))) :: .engine :: [] := ⟨rfl, rfl, rfl, rfl, rfl⟩

/-- EngineTurnCompletesCommandInFlight, ExhaustedScheduleGivesTheEngineItsTurn: scheduled and not, with a command and
with none. -/
theorem witness_engine_turn :
    (busyWith .nop).schedule = [] ∧ (busyWith .nop).inflight = some .nop ∧
    (withTurns (busyWith .nop) [.engine]).schedule = .engine :: [] ∧
    (withTurns (busyWith .nop) [.engine]).inflight = some .nop ∧
    State.reset.schedule = [] ∧ State.reset.inflight = none ∧
    (withTurns .reset [.engine]).schedule = .engine :: [] ∧ (withTurns .reset [.engine]).inflight = none := by decide

/-- CommandProtocol, and through it the statement of each command: an idle and a busy state, and NopOnlyCompletes'
STATUS 0x4. -/
theorem witness_command_protocol :
    wordIndex 0x0C = 3 ∧ State.reset.status.busy = false ∧ (busyWith .crcInit).status.busy = true ∧
    statusWord (State.reset.setStatus ⟨false, false, true, false⟩).status = 0x00000004 := by decide

/-- CommandsWriteOnlyTheirResultRegisters: commands outside each list. -/
theorem witness_frame :
    Instr.teaEnc ∉ [Instr.crcInit, .crcUpd8, .crcUpd16, .crcUpd32] ∧ Instr.crcUpd8 ∉ [Instr.teaEnc, .teaDec] := by decide

/-- UnusedArgBitsAreIgnored. -/
theorem witness_unused_arg_bits :
    (0xFFFFFF31 : Word).extractLsb' 0 8 = (withCrc 0 0x31).arg.extractLsb' 0 8 ∧
    (0xABCD0041 : Word).extractLsb' 0 16 = (withCrc 0 0x41).arg.extractLsb' 0 16 := by decide

/-- CrcResultDependsOnAccAndArgOnly: two different states. -/
theorem witness_crc_depends :
    let s := withCrc 7 9
    let s' := (s.setKey ⟨1, 2, 3, 4⟩).setBlock ⟨5, 6⟩
    s ≠ s' ∧ s.acc = s'.acc ∧ s.arg = s'.arg ∧ Instr.crcUpd32 ∈ [Instr.crcInit, .crcUpd8, .crcUpd16, .crcUpd32] := by
  decide

/-- ChangingOneByteChangesTheCrc, S7: one bit of the last byte. -/
theorem witness_one_byte : (0x39 : Byte) ≠ 0x38 := by decide

/-- ByteCommandsComputeTheMessageCrc: two bytes with different numbers of polls. -/
theorem witness_message :
    let s := withTurns .reset (hostCommand .crcInit 1 ++ hostFeed [(0x31, 0), (0x32, 2)] ++ [.engine])
    s.status.busy = false ∧ s.inflight = none ∧
    s.schedule = hostCommand .crcInit 1 ++ hostFeed [(0x31, 0), (0x32, 2)] ++ [.engine] := by decide

/-- EncryptAndDecryptAreInverses: a different state with the same block and key. -/
theorem witness_inverse :
    let t := withTea ⟨1, 2, 3, 4⟩ ⟨5, 6⟩
    let t' := t.setArg 9
    t ≠ t' ∧ t'.block = t.block ∧ t'.key = t.key := by decide

/-- TeaResultDependsOnKeyAndBlockOnly: two different states. -/
theorem witness_tea_depends :
    let s := withTea ⟨1, 2, 3, 4⟩ ⟨5, 6⟩
    let s' := s.setAcc 7
    s ≠ s' ∧ s.key = s'.key ∧ s.block = s'.block ∧ Instr.teaDec ∈ [Instr.teaEnc, .teaDec] := by decide

/-- GuardedWriteWhileBusyIsRefused, WriteWhileIdleStoresItsRegister, StatusRegisterWritesAndReads,
CtrlRegisterWritesReadsAndMasksIrq, ReadReturnsTheRegisterUnlessOpen: at every offset, so in each clause. -/
theorem witness_accesses (off : Offset) (v : Word) :
    (withTurns (busyWith .nop) [writeAt off v]).status.busy = true ∧
    (withTurns (busyWith .nop) [writeAt off v]).schedule = .host (.access (.write off v)) :: [] ∧
    (withTurns .reset [writeAt off v]).status.busy = false ∧
    (withTurns .reset [writeAt off v]).schedule = .host (.access (.write off v)) :: [] ∧
    (withTurns .reset [readAt off]).schedule = .host (.access (.read off)) :: [] ∧
    (withTurns (busyWith .nop) [readAt off]).status.busy = true := ⟨rfl, rfl, rfl, rfl, rfl, rfl⟩

/-- CtrlRegisterWritesReadsAndMasksIrq and IrqIsTheEnabledPendingBits: states that meet each hypothesis on the bits. -/
theorem witness_irq :
    let s := (State.reset.setCtrl ⟨true, true⟩).setStatus ⟨false, true, true, false⟩
    s.ctrl.doneIe = true ∧ s.status.done = true ∧ s.ctrl.errIe = true ∧ s.status.errIllegal = true ∧
    State.reset.ctrl = ⟨false, false⟩ ∧ s.ctrl = (s.setArg 3).ctrl ∧ s.status = (s.setArg 3).status := by decide

/-- LowOffsetBitsDoNotReachTheBlock. -/
theorem witness_low_offset_bits : wordIndex 0x10 = wordIndex 0x13 := by decide

/-- BusAddressSelectsTheWindow: the first address beyond the window. -/
theorem witness_bus :
    Config.blockBase + 64 ≤ Config.blockBase + 64 ∧
    (withTurns .reset [.host (.bus (Config.blockBase + 64) .read)]).schedule =
      .host (.bus (Config.blockBase + 64) .read) :: [] ∧
    (withTurns .reset [.host (.bus (Config.blockBase + (0x3F : Offset).toNat) (.write 1))]).schedule =
      .host (.bus (Config.blockBase + (0x3F : Offset).toNat) (.write 1)) :: [] := ⟨Nat.le_refl _, rfl, rfl⟩

/-- RepeatedAccessIsIdempotentExceptCmd: a write, an idle read of CRC_LO, a busy read of STATUS. -/
theorem witness_repeat :
    wordIndex 0x10 ≠ 3 ∧ (State.reset.status.busy = false ∨ wordIndex 0x18 ∉ [6, 7, 12, 13]) ∧
    (busyWith .nop).status.busy = true ∧ wordIndex 0x08 ∉ [6, 7, 12, 13] := by decide

/-- RepeatedAccessIsIdempotentExceptCmd: the widest indices just outside and the ones inside the open reads. -/
theorem witness_open_reads :
    wordIndex 0x14 ∉ [6, 7, 12, 13] ∧ wordIndex 0x20 ∉ [6, 7, 12, 13] ∧ wordIndex 0x2C ∉ [6, 7, 12, 13] ∧
    wordIndex 0x38 ∉ [6, 7, 12, 13] ∧ wordIndex 0x18 ∈ [6, 7, 12, 13] ∧ wordIndex 0x37 ∈ [6, 7, 12, 13] := by decide

/-- ErrorBitsAreSticky: both bits set over a step that keeps them and one that clears them. -/
theorem witness_sticky :
    let s := State.reset.setStatus ⟨false, false, true, true⟩
    s.status.errIllegal = true ∧ s.status.errBusy = true ∧
    (nextOf (step (withTurns s [readAt 0x08]))).map (fun t => t.status.errIllegal) = some true ∧
    (nextOf (step (withTurns s [writeAt 0x08 0xC]))).map (fun t => (t.status.errIllegal, t.status.errBusy)) =
      some (false, false) := by decide

/-- OnlyIdleWritesCommandsAndResetChangeData: steps that change KEY, ARG, ACC and the block. -/
theorem witness_changes :
    (nextOf (step (withTurns .reset [writeAt 0x2C 1]))).map (fun t => decide (t.key ≠ State.reset.key)) = some true ∧
    (nextOf (step (withTurns .reset [writeAt 0x10 1]))).map (fun t => decide (t.arg ≠ State.reset.arg)) = some true ∧
    (nextOf (step (busyWith .crcUpd8))).map (fun t => decide (t.acc ≠ State.reset.acc)) = some true ∧
    (nextOf (step (withTurns .reset [writeAt 0x34 1]))).map (fun t => decide (t.block ≠ State.reset.block)) = some true := by
  decide +kernel

/-- OperandsAreFrozenWhileBusy. -/
theorem witness_frozen :
    let s := withTurns (busyWith .crcUpd8) [writeAt 0x10 1]
    s.status.busy = true ∧ s.schedule = .host (.access (.write 0x10 1)) :: [] ∧
    (HostEvent.access (.write 0x10 1)).isReset = false := by decide

/-- CommandInFlightCompletesUnderAnyTraffic. -/
theorem witness_traffic :
    let s := withTurns (busyWith .teaEnc) [writeAt 0x0C 0xFF, readAt 0x30, writeAt 0x20 1]
    s.status.busy = true ∧ s.inflight = some .teaEnc ∧ ∀ x ∈ s.schedule, x.isReset = false := by decide

/-- PollingDoesNotChangeTheResult. -/
theorem witness_polling :
    let s := withTurns .reset (hostCmd .crcUpd16 :: (List.replicate 2 (hostR .status) ++ .engine :: []))
    s.status.busy = false ∧
    s.schedule = hostCmd .crcUpd16 :: (List.replicate 2 (hostR .status) ++ .engine :: []) := by decide

/-- CmdWriteMeetingCompletionGoesBothWays: a legal and an illegal word, both orders, and a next state of the command. -/
theorem witness_meeting :
    (busyWith .nop).status.busy = true ∧ (busyWith .nop).inflight = some .nop ∧ wordIndex 0x0C = 3 ∧
    exec .nop (busyWith .nop) = .next (busyWith .nop).complete ∧ decode 0x1 = .ok .crcInit ∧
    decode 0xFF = .error (.unassignedOpcode 0xFF) ∧
    (withTurns (busyWith .nop) [writeAt 0x0C 0xFF, .engine]).schedule =
      .host (.access (.write 0x0C 0xFF)) :: .engine :: [] ∧
    (withTurns (busyWith .nop) [.engine, writeAt 0x0C 0xFF]).schedule =
      .engine :: .host (.access (.write 0x0C 0xFF)) :: [] := ⟨rfl, rfl, rfl, rfl, rfl, rfl, rfl, rfl⟩

/-- CmdWriteMeetingCompletionGoesBothWays, its last part: an access from a state with both error bits 0 that sets one. -/
theorem witness_one_error :
    let s := withTurns (busyWith .nop) [writeAt 0x0C 0xFF]
    s.status.errIllegal = false ∧ s.status.errBusy = false ∧ statusAfter s = some 0x9 := by decide

/-- KeyIsUnobservableExceptThroughTea: a key read and a CRC completion. -/
theorem witness_key :
    nextStep (withTurns .reset [readAt 0x20]) ≠ .command .teaEnc ∧
    nextStep (withTurns .reset [readAt 0x20]) ≠ .command .teaDec ∧
    nextStep (busyWith .crcUpd8) ≠ .command .teaEnc ∧ nextStep (busyWith .crcUpd8) ≠ .command .teaDec ∧
    (nextOf (step (withTurns .reset [readAt 0x20]))).isSome = true ∧
    (nextOf (step { withTurns .reset [readAt 0x20] with key := ⟨1, 2, 3, 4⟩ })).isSome = true := by decide

/-- KeyIsUnobservableExceptThroughTea, its rdata clause: a busy KEY0 read delivers no open read. -/
theorem witness_key_rdata (e : HostEvent) (rest : List Turn) (off : Offset)
    (h : (withTurns (busyWith .teaEnc) [readAt 0x20]).schedule = .host e :: rest)
    (hd : e.delivers = some (.read off)) : wordIndex off ∉ [6, 7, 12, 13] := by
  cases h
  cases hd
  decide

/-- StepsThatReadNothingLeaveRdataZero: a write step, after a read that left rdata nonzero. -/
theorem witness_no_read (e : HostEvent) (rest : List Turn) (off : Offset)
    (h : (withTurns (State.reset.setRdata 5) [writeAt 0x10 1]).schedule = .host e :: rest) :
    e.delivers ≠ some (.read off) ∧
    rdataAfter (withTurns (State.reset.setRdata 5) [writeAt 0x10 1]) = some 0 := by
  cases h
  exact ⟨nofun, rfl⟩

/-- HazardFreeAccessRaisesNoBusyError: an idle write and a busy STATUS read. -/
theorem witness_hazard_free :
    hazard (withTurns .reset [writeAt 0x10 1]) (.write 0x10 1) = false ∧
    hazard (withTurns (busyWith .nop) [readAt 0x08]) (.read 0x08) = false ∧
    hazard (busyWith .nop) (.write 0x10 1) = true := by decide

/-- IdleReadsOfBothHalvesGiveTheAccumulator, both orders. -/
theorem witness_idle_reads :
    State.reset.status.busy = false ∧ State.reset.inflight = none ∧
    (withTurns .reset [hostR .crcLo, hostR .crcHi]).schedule = hostR .crcLo :: hostR .crcHi :: [] ∧
    (withTurns .reset [hostR .crcHi, hostR .crcLo]).schedule = hostR .crcHi :: hostR .crcLo :: [] := by decide

/-- StatusReadTellsCompletion: a consistent state whose read shows DONE = 1, and a busy one. -/
theorem witness_status_read :
    let s := withTurns (State.reset.setStatus ⟨false, true, false, false⟩) [hostR .status]
    s.Consistent ∧ s.schedule = hostR .status :: [] ∧ rdataAfter s = some 0x2 ∧
    (withTurns (busyWith .nop) [hostR .status]).Consistent := by decide

/-! ### Driver of the string overload and the ports -/

/-- 95_test_vectors.md S2, R133, and the vector of "A" expanded. -/
theorem test_string_driver :
    stringCrc [] = 0 ∧ hostString 0 [] = [] ∧ crc64 [] = 0xFFFFFFFFFFFFFFFF ∧
      stringCrc [0x0041] = 0x3082D3D92B4A257F ∧ stringCrc [0x0041, 0x0042] = 0x40678A36298869CF := by
  decide +kernel

/-- R76 and program P3's row for `W ARG, 0x41`. -/
theorem test_ports_write_cycle :
    (Signals.mk false true true 0x4 0x00000041).event = some (.access (.write 0x10 0x00000041)) ∧
      (Signals.mk false true false 0x2 0).event = some (.access (.read 0x08)) ∧
      (Signals.mk false false true 0x4 0x41).event = none := by decide

/-- R190: a reset cycle's access is ignored. -/
theorem test_ports_reset_cycle :
    (Signals.mk true true true 0x4 0x41).orders true = [[.host (.reset (some (.write 0x10 0x41)))]] ∧
      nextOf (step (withTurns (busyWith .teaEnc) [.host (.reset (some (.write 0x10 0x41)))])) =
        some State.reset := by decide

end Sys2Proof.Tests
end

/-! ### The state family: STATUS, CTRL and the error bits (10_state.md R23, R28 to R30) -/

namespace Sys2Proof.Machine

/-! #### Steps of scheduled accesses -/

theorem State.advance_eq {s : State} {t : Turn} {rest : List Turn} (h : s.schedule = t :: rest) :
    s.advance = { s with schedule := rest, rdata := 0 } := by
  simp [State.advance, State.setSchedule, State.setRdata, h]

theorem step_write {s : State} {off : Offset} {v : Word} {rest : List Turn}
    (h : s.schedule = .host (.access (.write off v)) :: rest) :
    step s = .next (regWrite { s with schedule := rest, rdata := 0 } off v) := by
  rw [step_host s _ rest h, State.advance_eq h]
  rfl

theorem step_read {s : State} {off : Offset} {rest : List Turn}
    (h : s.schedule = .host (.access (.read off)) :: rest) :
    step s = .next (regRead { s with schedule := rest, rdata := 0 } off) := by
  rw [step_host s _ rest h, State.advance_eq h]
  rfl

/-! #### Slots that BUSY does not touch -/

theorem regWrite_of_unguarded {off : Offset} {r : Slot} (hr : slotOf off = r) (hg : busyGuarded r = false)
    (s : State) (v : Word) : regWrite s off v = storeSlot s v r := by
  subst hr
  exact regWrite_stored s off v (by simp [hg])

theorem regRead_of_never_open {off : Offset} {r : Slot} (hr : slotOf off = r) (ho : openWhileBusy r = false)
    (s : State) : regRead s off = s.setRdata (slotValue s r) := by
  subst hr
  simp [regRead, ho]

@[simp] theorem regRead_status (s : State) (off : Offset) : (regRead s off).status = s.status := by
  obtain ⟨v, n, h, -⟩ := regRead_eq s off
  simp [h]

@[simp] theorem effect_status (i : Instr) (s : State) : (effect i s).status = s.status := by
  obtain ⟨a, b, h⟩ := effect_eq i s
  simp [h]

/-! #### STATUS (R30) -/

theorem slotOf_eq_status_iff (off : Offset) : slotOf off = .status ↔ wordIndex off = 2 :=
  slotOf_eq_iff off .status

theorem regWrite_status_slot {off : Offset} (h : wordIndex off = 2) (s : State) (v : Word) :
    regWrite s off v = s.setStatus (statusW1C s.status v) :=
  regWrite_of_unguarded ((slotOf_eq_status_iff off).2 h) rfl s v

theorem regRead_status_slot {off : Offset} (h : wordIndex off = 2) (s : State) :
    regRead s off = s.setRdata (statusWord s.status) :=
  regRead_of_never_open ((slotOf_eq_status_iff off).2 h) rfl s

theorem statusW1C_eq_ite (st : Status) (v : Word) :
    statusW1C st v =
      { busy := st.busy
        done := if v.getLsbD 1 = true then false else st.done
        errIllegal := if v.getLsbD 2 = true then false else st.errIllegal
        errBusy := if v.getLsbD 3 = true then false else st.errBusy } := by
  have clear_eq_ite (bit w : Bool) : (bit && !w) = if w = true then false else bit := by
    cases w <;> simp
  simp only [statusW1C, clear_eq_ite]

theorem statusWord_eq_setWidth (st : Status) :
    statusWord st = (BitVec.ofBool st.errBusy ++ BitVec.ofBool st.errIllegal ++ BitVec.ofBool st.done ++
      BitVec.ofBool st.busy).setWidth 32 := by
  obtain ⟨busy, done, errIllegal, errBusy⟩ := st
  revert busy done errIllegal errBusy
  decide

/-- Settles O35: STATUS is neither busy-guarded nor open while busy, so its write and read rules apply always. -/
theorem statusRegisterWritesAndReads : Obligations.StatusRegisterWritesAndReads := by
  intro s off rest hoff
  constructor
  · intro v hs
    refine ⟨0, ?_⟩
    rw [step_write hs, regWrite_status_slot hoff, statusW1C_eq_ite]
    rfl
  · intro hs
    rw [step_read hs, regRead_status_slot hoff, statusWord_eq_setWidth]
    rfl

/-! #### CTRL and irq (R23) -/

theorem slotOf_eq_ctrl_iff (off : Offset) : slotOf off = .ctrl ↔ wordIndex off = 1 :=
  slotOf_eq_iff off .ctrl

theorem regWrite_ctrl_slot {off : Offset} (h : wordIndex off = 1) (s : State) (v : Word) :
    regWrite s off v = s.setCtrl (ctrlOfWord v) :=
  regWrite_of_unguarded ((slotOf_eq_ctrl_iff off).2 h) rfl s v

theorem regRead_ctrl_slot {off : Offset} (h : wordIndex off = 1) (s : State) :
    regRead s off = s.setRdata (ctrlWord s.ctrl) :=
  regRead_of_never_open ((slotOf_eq_ctrl_iff off).2 h) rfl s

theorem ctrlWord_eq_setWidth (c : Ctrl) :
    ctrlWord c = (BitVec.ofBool c.errIe ++ BitVec.ofBool c.doneIe).setWidth 32 := by
  obtain ⟨doneIe, errIe⟩ := c
  revert doneIe errIe
  decide

theorem State.irq_eq_true_iff (s : State) :
    s.irq = true ↔ (s.ctrl.doneIe = true ∧ s.status.done = true) ∨
      (s.ctrl.errIe = true ∧ (s.status.errIllegal = true ∨ s.status.errBusy = true)) := by
  simp [State.irq]

theorem State.irq_of_masked {s : State} (h : s.ctrl = ⟨false, false⟩) : s.irq = false := by
  simp [State.irq, h]

/-- Settles O36: CTRL is neither busy-guarded nor open while busy, and its two bits are the masks of irq. -/
theorem ctrlRegisterWritesReadsAndMasksIrq : Obligations.CtrlRegisterWritesReadsAndMasksIrq := by
  refine ⟨fun s off rest hoff => ⟨fun v hs => ⟨0, ?_⟩, fun hs => ?_⟩, rfl, fun s => ⟨fun hie hdone => ?_,
    fun hie herr => ?_, State.irq_of_masked⟩⟩
  · rw [step_write hs, regWrite_ctrl_slot hoff]
    rfl
  · rw [step_read hs, regRead_ctrl_slot hoff, ctrlWord_eq_setWidth]
    rfl
  · exact s.irq_eq_true_iff.2 (.inl ⟨hie, hdone⟩)
  · exact s.irq_eq_true_iff.2 (.inr ⟨hie, herr⟩)

/-! #### The two sticky error bits (R28, R29) -/

/-- The two recorded errors. One argument serves both. -/
inductive ErrorBit where
  | illegal
  | busy

/-- The bit's value in STATUS. -/
def ErrorBit.get : ErrorBit → Status → Bool
  | .illegal, st => st.errIllegal
  | .busy, st => st.errBusy

/-- The bit's position in STATUS, where a written 1 clears it (R30). -/
def ErrorBit.index : ErrorBit → Nat
  | .illegal => 2
  | .busy => 3

/-- What R28 and R29 allow to clear an error bit: reset, or a write of 1 to its position in STATUS. -/
def ErrorBit.ClearedBy (b : ErrorBit) (e : HostEvent) : Prop :=
  e.isReset = true ∨ ∃ off v, e.delivers = some (.write off v) ∧ wordIndex off = 2 ∧ v.getLsbD b.index = true

namespace ErrorBit

variable (b : ErrorBit)

@[simp] theorem get_statusAccepted (st : Status) : b.get (statusAccepted st) = b.get st := by cases b <;> rfl

@[simp] theorem get_statusCompleted (st : Status) : b.get (statusCompleted st) = b.get st := by cases b <;> rfl

theorem get_statusIllegal {st : Status} (h : b.get st = true) : b.get (statusIllegal st) = true := by
  cases b with
  | illegal => rfl
  | busy => exact h

theorem get_statusBusyError {st : Status} (h : b.get st = true) : b.get (statusBusyError st) = true := by
  cases b with
  | illegal => exact h
  | busy => rfl

@[simp] theorem get_statusW1C (st : Status) (v : Word) :
    b.get (statusW1C st v) = (b.get st && !v.getLsbD b.index) := by
  cases b <;> rfl

theorem get_doReset (s : State) : b.get s.doReset.status = false := by cases b <;> rfl

variable {b} {s : State} (hset : b.get s.status = true)
include hset

theorem get_issue (w : Word) : b.get (issue s w).status = true := by
  obtain ⟨i, -, h⟩ | ⟨r, -, h⟩ := issue_cases s w
  · simpa [h] using hset
  · simpa [h] using b.get_statusIllegal hset

theorem get_storeSlot {r : Slot} (hr : r ≠ .status) (v : Word) : b.get (storeSlot s v r).status = true := by
  cases r with
  | status => exact absurd rfl hr
  | cmd => exact get_issue hset v
  | _ => exact hset

theorem get_regWrite {off : Offset} (hoff : wordIndex off ≠ 2) (v : Word) :
    b.get (regWrite s off v).status = true := by
  cases hg : s.status.busy && busyGuarded (slotOf off) with
  | true => simpa [regWrite_refused s off v hg] using b.get_statusBusyError hset
  | false =>
    rw [regWrite_stored s off v hg]
    exact get_storeSlot hset (mt (slotOf_eq_status_iff off).1 hoff) v

theorem get_regWrite_eq_false_iff (off : Offset) (v : Word) :
    b.get (regWrite s off v).status = false ↔ wordIndex off = 2 ∧ v.getLsbD b.index = true := by
  by_cases hoff : wordIndex off = 2
  · simp [regWrite_status_slot hoff, hset, hoff]
  · exact iff_of_false (by simp [get_regWrite hset hoff]) fun h => hoff h.1

theorem get_hostEvent_eq_false_iff (e : HostEvent) :
    b.get (hostEvent s e).status = false ↔ b.ClearedBy e := by
  obtain ⟨a, hd, hr, h⟩ | ⟨-, hr, h⟩ | ⟨hd, hr, h⟩ := hostEvent_cases s e
  · cases a with
    | read off => simp [h, access, hset, ClearedBy, hr, hd]
    | write off v => simp [h, access, get_regWrite_eq_false_iff hset, ClearedBy, hr, hd]
  · exact iff_of_true (h ▸ b.get_doReset s) (.inl hr)
  · simp [h, hset, ClearedBy, hr, hd]

theorem get_step_eq_false_iff {t : State} (h : step s = .next t) :
    b.get t.status = false ↔ ∃ e rest, s.schedule = .host e :: rest ∧ b.ClearedBy e := by
  have no_event {n : NextStep} (hn : nextStep s = n) (hne : ∀ e, n ≠ .outside e) :
      ¬ ∃ e rest, s.schedule = .host e :: rest ∧ b.ClearedBy e :=
    fun ⟨e, rest, hs, _⟩ => hne e (hn.symm.trans (nextStep_host s e rest hs))
  obtain ⟨i, -, hn, hstep⟩ | ⟨e, l, hs, -, hstep⟩ | ⟨-, hn, hstep⟩ := step_cases s
  · rw [hstep, exec_eq_effect] at h
    cases h
    simpa [hset] using no_event hn nofun
  · rw [hstep] at h
    cases h
    simp [hs, get_hostEvent_eq_false_iff (s := s.advance) hset]
  · rw [hstep] at h
    cases h
    simpa [hset] using no_event hn nofun

end ErrorBit

/-- Settles O42: the same argument for each of the two error bits. -/
theorem errorBitsAreSticky : Obligations.ErrorBitsAreSticky :=
  fun _ _ h => ⟨fun hset => ErrorBit.get_step_eq_false_iff (b := .illegal) hset h,
    fun hset => ErrorBit.get_step_eq_false_iff (b := .busy) hset h⟩

end Sys2Proof.Machine

/-! ### The encoding family: command words, acceptance and completion (30_encoding.md R80 to R91) -/

namespace Sys2Proof.Machine

/-! #### The opcode map (R84) -/

theorem opcodeMap_lookup_opcodeOf (i : Instr) : opcodeMap.lookup (opcodeOf i) = some i := by
  cases i <;> rfl

theorem exists_opcodeMap_lookup_iff (b : Byte) :
    (∃ i, opcodeMap.lookup b = some i) ↔ b ∈ [0x00, 0x01, 0x02, 0x03, 0x04, 0x10, 0x11] := by
  rw [← Option.isSome_iff_exists, List.lookup_isSome_iff]
  simp [opcodeMap]

/-! #### Command words (R80, R81) -/

theorem fieldsOf_encode (i : Instr) : fieldsOf (encode i) = ⟨opcodeOf i, 0⟩ := by
  cases i <;> rfl

theorem decode_encode (i : Instr) : decode (encode i) = .ok i := by
  rw [decode_eq_ok, fieldsOf_encode]
  exact ⟨rfl, opcodeMap_lookup_opcodeOf i⟩

theorem exists_decode_eq_ok_iff (w : Word) :
    (∃ i, decode w = .ok i) ↔
      w.extractLsb' 8 24 = 0 ∧ w.extractLsb' 0 8 ∈ [0x00, 0x01, 0x02, 0x03, 0x04, 0x10, 0x11] := by
  simp only [decode_eq_ok, exists_and_left, exists_opcodeMap_lookup_iff, fieldsOf]

/-- Every word gets exactly one verdict (R81). -/
theorem exists_decode_eq_error_iff (w : Word) : (∃ r, decode w = .error r) ↔ ¬∃ i, decode w = .ok i := by
  cases decode w <;> simp

/-- Settles O7: the verdict is a command exactly where both checks pass, and a reason exactly where it is none. -/
theorem wordLegalExactlyWhenReservedZeroAndOpcodeAssigned :
    Obligations.WordLegalExactlyWhenReservedZeroAndOpcodeAssigned := fun w =>
  ⟨exists_decode_eq_ok_iff w, (exists_decode_eq_error_iff w).trans (not_congr (exists_decode_eq_ok_iff w))⟩

/-- Settles O5: the seven words are what the commands encode to, and each command's word decodes to it. -/
theorem opcodeMapWordsDecode : Obligations.OpcodeMapWordsDecode :=
  ⟨⟨decode_encode .nop, decode_encode .crcInit, decode_encode .crcUpd8, decode_encode .crcUpd16,
    decode_encode .crcUpd32, decode_encode .teaEnc, decode_encode .teaDec⟩, rfl, rfl, rfl, rfl, rfl, rfl, rfl⟩

/-! #### Acceptance (R89, R90) -/

theorem slotOf_eq_cmd_iff (off : Offset) : slotOf off = .cmd ↔ wordIndex off = 3 :=
  slotOf_eq_iff off .cmd

theorem regWrite_cmd_of_idle {s : State} {off : Offset} (hoff : wordIndex off = 3) (w : Word)
    (hidle : s.status.busy = false) : regWrite s off w = issue s w := by
  rw [regWrite_stored s off w (by simp [hidle]), (slotOf_eq_cmd_iff off).2 hoff]
  rfl

theorem issue_of_decode_ok {w : Word} {i : Instr} (h : decode w = .ok i) (s : State) : issue s w = s.accept i := by
  simp [issue, h]

/-- Settles O9: an idle CMD write is an issue, and a command's own word is accepted. -/
theorem legalWordWhileIdleIsAccepted : Obligations.LegalWordWhileIdleIsAccepted := by
  intro s off i rest hoff hidle hs
  refine ⟨0, ?_⟩
  rw [step_write hs, regWrite_cmd_of_idle hoff, issue_of_decode_ok (decode_encode i)]
  · rfl
  · exact hidle

/-! #### Completion (R91) -/

theorem engineTurn_eq_command_iff (s : State) (i : Instr) : engineTurn s = .command i ↔ s.inflight = some i := by
  cases h : s.inflight with
  | none => simp [engineTurn_none s h]
  | some j => simp [engineTurn_some s j h]

/-- Settles O10: a scheduled engine's turn is a command exactly where one is in flight, and every command ends in the
shared completion. -/
theorem engineTurnCompletesCommandInFlight : Obligations.EngineTurnCompletesCommandInFlight := by
  intro s rest hs
  have hnext (i : Instr) : nextStep s = .command i ↔ s.inflight = some i := by
    rw [nextStep_engine s rest hs, engineTurn_eq_command_iff]
  refine ⟨by simp only [hnext, Option.ne_none_iff_exists'], fun i hi => ?_⟩
  have hstep : step s = exec i s.advance := step_of_command s i ((hnext i).2 hi)
  refine ⟨⟨0, by rw [hstep, State.advance_eq hs]⟩, (effect i s.advance).complete, ?_, rfl, ?_⟩
  · rw [hstep, exec_eq_effect]
  · simp [statusCompleted]

end Sys2Proof.Machine

/-! ### The TEA family: encryption and decryption (40_tea.md R103 to R106) -/

namespace Sys2Proof.Machine

/-! #### Rounds and loops undo each other -/

/-- A decryption round mixes with the same `sum` and undoes the two half-rounds in reverse order. -/
theorem teaDecRound_leftInverse (k : TeaKey) : Function.LeftInverse (teaDecRound k) (teaEncRound k) := fun r => by
  simp [teaEncRound, teaDecRound]

/-- An encryption round likewise undoes a decryption round: it first restores the `sum` that round used. -/
theorem teaEncRound_leftInverse (k : TeaKey) : Function.LeftInverse (teaEncRound k) (teaDecRound k) := fun r => by
  simp [teaEncRound, teaDecRound]

@[simp] theorem teaDecLoop_teaEncLoop (k : TeaKey) (n : Nat) (r : TeaRegs) :
    teaDecLoop k n (teaEncLoop k n r) = r :=
  (teaDecRound_leftInverse k).iterate n r

@[simp] theorem teaEncLoop_teaDecLoop (k : TeaKey) (n : Nat) (r : TeaRegs) :
    teaEncLoop k n (teaDecLoop k n r) = r :=
  (teaEncRound_leftInverse k).iterate n r

/-! #### `sum` at the end of a loop -/

theorem teaEncLoop_sum (k : TeaKey) (n : Nat) (r : TeaRegs) :
    (teaEncLoop k n r).sum = r.sum + BitVec.ofNat 32 (n * 0x9E3779B9) := by
  induction n with
  | zero => simp
  | succ n ih =>
    rw [teaEncLoop_succ_last, teaEncRound_sum, ih, Nat.succ_mul, BitVec.ofNat_add, BitVec.add_assoc]
    rfl

/-- The decryption loop's `sum` is read off the encryption loop that undoes it. -/
theorem teaDecLoop_sum (k : TeaKey) (n : Nat) (r : TeaRegs) :
    (teaDecLoop k n r).sum = r.sum - BitVec.ofNat 32 (n * 0x9E3779B9) := by
  have h := teaEncLoop_sum k n (teaDecLoop k n r)
  rw [teaEncLoop_teaDecLoop] at h
  rw [h, BitVec.add_sub_cancel]

/-- Encryption ends where decryption starts (40_tea.md R101). -/
theorem teaEncLoop_teaRounds_sum (k : TeaKey) {r : TeaRegs} (h : r.sum = 0) :
    (teaEncLoop k teaRounds r).sum = teaDecStart := by
  rw [teaEncLoop_sum, h]
  rfl

/-- Decryption ends where encryption starts (40_tea.md R101). -/
theorem teaDecLoop_teaRounds_sum (k : TeaKey) {r : TeaRegs} (h : r.sum = teaDecStart) :
    (teaDecLoop k teaRounds r).sum = 0 := by
  rw [teaDecLoop_sum, h]
  rfl

/-! #### Blocks -/

/-- Encryption resumes the loop registers that a block came from, if their `sum` is its start value. -/
theorem teaEncrypt_teaResult (k : TeaKey) {r : TeaRegs} (h : r.sum = 0) :
    teaEncrypt k (teaResult r) = teaResult (teaEncLoop k teaRounds r) := by
  rw [teaEncrypt, ← h]
  rfl

/-- Decryption resumes the loop registers that a block came from, if their `sum` is its start value. -/
theorem teaDecrypt_teaResult (k : TeaKey) {r : TeaRegs} (h : r.sum = teaDecStart) :
    teaDecrypt k (teaResult r) = teaResult (teaDecLoop k teaRounds r) := by
  rw [teaDecrypt, ← h]
  rfl

@[simp] theorem teaDecrypt_teaEncrypt (k : TeaKey) (b : TeaBlock) : teaDecrypt k (teaEncrypt k b) = b := by
  rw [teaEncrypt, teaDecrypt_teaResult k (teaEncLoop_teaRounds_sum k rfl), teaDecLoop_teaEncLoop]
  rfl

@[simp] theorem teaEncrypt_teaDecrypt (k : TeaKey) (b : TeaBlock) : teaEncrypt k (teaDecrypt k b) = b := by
  rw [teaDecrypt, teaEncrypt_teaResult k (teaDecLoop_teaRounds_sum k rfl), teaEncLoop_teaDecLoop]
  rfl

/-! #### Commands -/

@[simp] theorem effect_teaEnc_block (s : State) : (effect .teaEnc s).block = teaEncrypt s.key s.block := rfl

@[simp] theorem effect_teaDec_block (s : State) : (effect .teaDec s).block = teaDecrypt s.key s.block := rfl

@[simp] theorem effect_key (i : Instr) (s : State) : (effect i s).key = s.key := by
  obtain ⟨a, b, h⟩ := effect_eq i s
  simp [h]

/-- Settles O30: each command's round is undone by the other's, and each command's `sum` ends where the other's
starts. -/
theorem encryptAndDecryptAreInverses : Obligations.EncryptAndDecryptAreInverses := by
  intro s
  refine ⟨⟨_, exec_eq_effect .teaEnc s, fun t' hblock hkey => ⟨_, exec_eq_effect .teaDec t', ?_⟩⟩,
    ⟨_, exec_eq_effect .teaDec s, fun t' hblock hkey => ⟨_, exec_eq_effect .teaEnc t', ?_⟩⟩⟩
  · simp [hblock, hkey]
  · simp [hblock, hkey]

/-- Settles O31: a TEA command's block is a function of the key and the block. -/
theorem teaResultDependsOnKeyAndBlockOnly : Obligations.TeaResultDependsOnKeyAndBlockOnly := by
  intro i s s' hi hkey hblock
  refine ⟨_, _, exec_eq_effect i s, exec_eq_effect i s', ?_⟩
  obtain rfl | rfl : i = .teaEnc ∨ i = .teaDec := by simpa using hi
  · simp [hkey, hblock]
  · simp [hkey, hblock]

end Sys2Proof.Machine

/-! ### The CRC-64 family: the table, the fold and the CRC commands (41_crc64.md R121 to R130) -/

namespace Sys2Proof.Machine

/-! #### The table (R121) -/

theorem crcRound_eq_xor (c : DWord) : crcRound c = (c >>> 1) ^^^ (if c.getLsbD 0 then crcPoly else 0) := by
  unfold crcRound
  split <;> simp

/-- The shift is linear, and so is the choice of the polynomial by bit 0. -/
theorem crcRound_xor (c d : DWord) : crcRound (c ^^^ d) = crcRound c ^^^ crcRound d := by
  have choice_xor (x y : Bool) : (if x ^^ y then crcPoly else 0) =
      (if x then crcPoly else 0) ^^^ (if y then crcPoly else 0) := by
    cases x <;> cases y <;> simp
  simp only [crcRound_eq_xor, BitVec.getLsbD_xor, BitVec.ushiftRight_xor_distrib, choice_xor]
  ac_rfl

theorem crcRounds_xor (n : Nat) (c d : DWord) : crcRounds n (c ^^^ d) = crcRounds n c ^^^ crcRounds n d := by
  induction n with
  | zero => rfl
  | succ n ih => simp only [crcRounds_succ_last, ih, crcRound_xor]

theorem tableEntry_xor (a b : Byte) : tableEntry (a ^^^ b) = tableEntry a ^^^ tableEntry b := by
  simp only [tableEntry, BitVec.setWidth_xor, crcRounds_xor]

/-- Iterating the round is the fold over a list of that many elements. -/
theorem crcRounds_eq_foldl (n : Nat) (c : DWord) :
    crcRounds n c = (List.range n).foldl (fun c _ => crcRound c) c := by
  rw [List.foldl_const, List.length_range, crcRounds]

/-- Settles O20: a round is linear over XOR, and so are eight of them. -/
theorem tableEntryIsTheEightRoundConstruction : Obligations.TableEntryIsTheEightRoundConstruction :=
  ⟨fun i => crcRounds_eq_foldl 8 (i.setWidth 64), by decide, by decide, by decide, tableEntry_xor⟩

/-! #### The fold (R122) -/

/-- The shifted accumulator has no bit in the top byte. -/
theorem fold_topByte (a : DWord) (b : Byte) :
    (fold a b).extractLsb' 56 8 = (tableEntry ((a ^^^ b.setWidth 64).extractLsb' 0 8)).extractLsb' 56 8 := by
  have hshift : (a >>> 8).extractLsb' 56 8 = 0 := by
    apply BitVec.eq_of_getLsbD_eq
    intro i hi
    have hbit : a.getLsbD (8 + (56 + i)) = false := BitVec.getLsbD_of_ge a _ (by omega)
    simp [hbit]
  rw [fold, BitVec.extractLsb'_xor, hshift]
  exact BitVec.xor_zero

/-- Settles O21: the formula is the model's own, and its shifted part leaves the top byte to the table entry. -/
theorem foldIndexesTableAndShiftsByEight : Obligations.FoldIndexesTableAndShiftsByEight := fun a b =>
  ⟨rfl, fold_topByte a b⟩

/-! #### The protocol of a command's own word (R89, R90, R163) -/

theorem commandProtocol_encode (i : Instr) : CommandProtocol i (encode i) := by
  refine ⟨decode_encode i, fun s off hoff hidle => ?_, fun s off hoff hbusy => ?_⟩
  · rw [regWrite_cmd_of_idle hoff _ hidle, issue_of_decode_ok (decode_encode i)]
    rfl
  · have hslot : slotOf off = .cmd := (slotOf_eq_cmd_iff off).2 hoff
    rw [regWrite_refused s off _ (by rw [hbusy, hslot]; rfl)]
    rfl

/-! #### The CRC commands (R125 to R128) -/

/-- A command whose effect writes ACC alone changes besides only what the shared completion does (R91). -/
theorem exec_of_effect_eq_setAcc {i : Instr} {s : State} {a : DWord} (h : effect i s = s.setAcc a) :
    exec i s = .next { s with
      acc := a, inflight := none, status := { s.status with busy := false, done := true } } := by
  rw [exec_eq_effect, h]
  rfl

/-- Settles O13: CRC_INIT's effect writes ACC alone, and the completion is the shared one. -/
theorem crcInitSetsInitialValue : Obligations.CrcInitSetsInitialValue :=
  ⟨commandProtocol_encode .crcInit, fun _ => exec_of_effect_eq_setAcc rfl⟩

/-- Settles O14: CRC_UPD8's effect writes ACC alone, with one byte folded in. -/
theorem crcUpd8FoldsOneByte : Obligations.CrcUpd8FoldsOneByte :=
  ⟨commandProtocol_encode .crcUpd8, fun _ => exec_of_effect_eq_setAcc rfl,
    by decide +kernel, by decide +kernel, by decide +kernel, by decide +kernel⟩

/-- Settles O15: CRC_UPD16's effect writes ACC alone, with the low byte folded in first. -/
theorem crcUpd16FoldsLowByteThenHighByte : Obligations.CrcUpd16FoldsLowByteThenHighByte :=
  ⟨commandProtocol_encode .crcUpd16, fun _ => exec_of_effect_eq_setAcc rfl,
    by decide +kernel, by decide +kernel⟩

/-- Settles O16: CRC_UPD32's effect writes ACC alone, with the least significant byte folded in first. -/
theorem crcUpd32FoldsFourBytesLeastSignificantFirst : Obligations.CrcUpd32FoldsFourBytesLeastSignificantFirst :=
  ⟨commandProtocol_encode .crcUpd32, fun _ => exec_of_effect_eq_setAcc rfl,
    by decide +kernel, by decide +kernel⟩

/-! #### The empty message (R130) -/

theorem regRead_of_idle {s : State} (hidle : s.status.busy = false) (off : Offset) :
    regRead s off = s.setRdata (slotValue s (slotOf off)) := by
  simp [regRead, hidle]

theorem regRead_crc_of_initValue {s : State} (hidle : s.status.busy = false) (hacc : s.acc = crcInitValue) :
    (regRead s 0x18).rdata = 0xFFFFFFFF ∧ (regRead s 0x1C).rdata = 0xFFFFFFFF := by
  have hlo : slotOf 0x18 = .crcLo := rfl
  have hhi : slotOf 0x1C = .crcHi := rfl
  rw [regRead_of_idle hidle, regRead_of_idle hidle, hlo, hhi]
  simp only [State.setRdata_rdata, slotValue, hacc]
  decide

/-- Settles O23: completion of CRC_INIT and reset both leave the block idle with the initial value in ACC. -/
theorem emptyMessageGivesAllOnes : Obligations.EmptyMessageGivesAllOnes :=
  ⟨rfl, fun s => ⟨_, exec_eq_effect .crcInit s, regRead_crc_of_initValue rfl rfl⟩,
    regRead_crc_of_initValue rfl rfl⟩

end Sys2Proof.Machine

/-! ### The control family: NOP (42_control.md R150) -/

namespace Sys2Proof.Machine

/-- The STATUS word shows every status bit (R30). -/
theorem statusWord_injective : Function.Injective statusWord := by
  rintro ⟨busy, done, errIllegal, errBusy⟩ ⟨busy', done', errIllegal', errBusy'⟩
  revert busy done errIllegal errBusy busy' done' errIllegal' errBusy'
  decide

theorem regWrite_cmd_encode_of_idle {s : State} {off : Offset} (hoff : wordIndex off = 3)
    (hidle : s.status.busy = false) (i : Instr) : regWrite s off (encode i) = s.accept i := by
  rw [regWrite_cmd_of_idle hoff _ hidle, issue_of_decode_ok (decode_encode i)]

theorem exec_nop (s : State) : exec .nop s = .next s.complete := exec_eq_effect .nop s

/-- Settles O12: NOP has no effect before the shared completion, and STATUS 0x4 says that ERR_ILLEGAL alone is set. -/
theorem nopOnlyCompletes : Obligations.NopOnlyCompletes := by
  refine ⟨commandProtocol_encode .nop, exec_nop, fun s hs => ?_⟩
  have hstatus : s.status = ⟨false, false, true, false⟩ := statusWord_injective hs
  have hwrite : regWrite s 0x0C 0x00000000 = s.accept .nop :=
    regWrite_cmd_encode_of_idle rfl (by rw [hstatus]) .nop
  rw [hwrite]
  refine ⟨?_, _, exec_nop _, ?_⟩
  · rw [State.accept_status, hstatus]
    rfl
  · rw [State.complete_status, State.accept_status, hstatus]
    rfl

end Sys2Proof.Machine

/-! ### The exceptions family: the two recorded errors, open reads and irq (60_exceptions.md R162 to R170) -/

namespace Sys2Proof.Machine

/-! #### A CMD write that meets a completion (R164) -/

theorem run_two {s t u : State} (ht : step s = .next t) (hu : step t = .next u) : run 2 s = .next u := by
  rw [run_succ 1 ht, run_succ 0 hu]
  rfl

theorem step_engine {s : State} {i : Instr} {rest : List Turn} (h : s.schedule = .engine :: rest)
    (hi : s.inflight = some i) : step s = exec i { s with schedule := rest, rdata := 0 } := by
  rw [step_of_command s i ((nextStep_engine s rest h).trans (engineTurn_some s i hi)), State.advance_eq h]

theorem effect_setStatus (i : Instr) (s : State) (st : Status) :
    effect i (s.setStatus st) = (effect i s).setStatus st := by
  cases i <;> rfl

theorem effect_setSchedule (i : Instr) (s : State) (l : List Turn) :
    effect i (s.setSchedule l) = (effect i s).setSchedule l := by
  cases i <;> rfl

@[simp] theorem effect_schedule (i : Instr) (s : State) : (effect i s).schedule = s.schedule := by
  obtain ⟨a, b, h⟩ := effect_eq i s
  simp [h]

theorem exec_eq_next_iff (i : Instr) (s u : State) : exec i s = .next u ↔ (effect i s).complete = u := by
  rw [exec_eq_effect, Host.Outcome.next.injEq]

/-- An ERR_BUSY raised while a command is in flight is kept by its completion (R29, R91). -/
theorem exec_raiseBusy {i : Instr} {s u : State} (h : exec i s = .next u) :
    exec i s.raiseBusy = .next u.raiseBusy := by
  rw [exec_eq_next_iff] at h ⊢
  rw [← h, State.raiseBusy, effect_setStatus, ← effect_status i s]
  rfl

/-- No command looks at the turns still to come. -/
theorem exec_setSchedule {i : Instr} {s u : State} (h : exec i s = .next u) (l : List Turn) :
    exec i (s.setSchedule l) = .next (u.setSchedule l) := by
  rw [exec_eq_next_iff] at h ⊢
  rw [← h, effect_setSchedule]
  rfl

theorem busy_of_exec {i : Instr} {s u : State} (h : exec i s = .next u) : u.status.busy = false := by
  rw [exec_eq_next_iff] at h
  simp [← h]

theorem schedule_of_exec {i : Instr} {s u : State} (h : exec i s = .next u) : u.schedule = s.schedule := by
  rw [exec_eq_next_iff] at h
  simp [← h]

theorem busyGuarded_slotOf_iff (off : Offset) :
    busyGuarded (slotOf off) = true ↔ wordIndex off ∈ [3, 4, 6, 7, 8, 9, 10, 11, 12, 13] := by
  revert off
  decide

theorem regWrite_guarded_of_busy {s : State} {off : Offset}
    (hoff : wordIndex off ∈ [3, 4, 6, 7, 8, 9, 10, 11, 12, 13]) (v : Word) (hbusy : s.status.busy = true) :
    regWrite s off v = s.raiseBusy :=
  regWrite_refused s off v (by simp [hbusy, (busyGuarded_slotOf_iff off).2 hoff])

theorem issue_of_decode_error {w : Word} {r : IllegalWord} (h : decode w = .error r) (s : State) :
    issue s w = s.raiseIllegal := by
  simp [issue, h]

section

variable {s u : State} {i : Instr} {off : Offset} {w : Word} {rest : List Turn} (hoff : wordIndex off = 3)
  (hi : s.inflight = some i) (hu : exec i { s with schedule := rest, rdata := 0 } = .next u)
include hoff hi hu

/-- Access first: the word is refused undecoded, and the command then completes with ERR_BUSY set. -/
theorem run_two_write_then_engine (hbusy : s.status.busy = true)
    (hs : s.schedule = .host (.access (.write off w)) :: .engine :: rest) : run 2 s = .next u.raiseBusy := by
  have hwrite : step s = .next ({ s with schedule := .engine :: rest, rdata := 0 } : State).raiseBusy := by
    rw [step_write hs, regWrite_guarded_of_busy (by simp [hoff])]
    exact hbusy
  refine run_two hwrite ?_
  rw [step_engine (i := i) (rest := rest)]
  · exact exec_raiseBusy hu
  · rfl
  · exact hi

/-- Completion first: the block is idle when the word comes, so the word is issued. -/
theorem run_two_engine_then_write (hs : s.schedule = .engine :: .host (.access (.write off w)) :: rest) :
    run 2 s = .next (issue (u.setRdata 0) w) := by
  have hengine : step s = .next (u.setSchedule (.host (.access (.write off w)) :: rest)) :=
    (step_engine hs hi).trans (exec_setSchedule hu _)
  have hrest : rest = u.schedule := (schedule_of_exec hu).symm
  have hidle : u.status.busy = false := busy_of_exec hu
  refine run_two hengine ?_
  rw [step_write rfl, regWrite_cmd_of_idle hoff, hrest]
  · rfl
  · exact hidle

end

/-! #### One access sets at most one new error bit (R164) -/

theorem errBusy_of_errBusy_storeSlot {s : State} {v : Word} {r : Slot}
    (h : (storeSlot s v r).status.errBusy = true) : s.status.errBusy = true := by
  cases r with
  | status => exact (Bool.and_eq_true_iff.1 h).1
  | cmd =>
    obtain ⟨i, -, hw⟩ | ⟨e, -, hw⟩ := issue_cases s v
    · simpa [storeSlot, hw] using h
    · simpa [storeSlot, hw] using h
  | _ => exact h

/-- A refused write leaves ERR_ILLEGAL, and a stored one sets no ERR_BUSY. -/
theorem regWrite_sets_at_most_one_error {s : State} (hillegal : s.status.errIllegal = false)
    (hbusy : s.status.errBusy = false) (off : Offset) (v : Word) :
    ¬((regWrite s off v).status.errIllegal = true ∧ (regWrite s off v).status.errBusy = true) := by
  rintro ⟨hillegal', hbusy'⟩
  cases hg : s.status.busy && busyGuarded (slotOf off) with
  | true => simp [regWrite_refused s off v hg, hillegal] at hillegal'
  | false =>
    rw [regWrite_stored s off v hg] at hbusy'
    simp [errBusy_of_errBusy_storeSlot hbusy'] at hbusy

theorem hostEvent_sets_at_most_one_error {s : State} (hillegal : s.status.errIllegal = false)
    (hbusy : s.status.errBusy = false) (e : HostEvent) :
    ¬((hostEvent s e).status.errIllegal = true ∧ (hostEvent s e).status.errBusy = true) := by
  obtain ⟨a, -, -, h⟩ | ⟨-, -, h⟩ | ⟨-, -, h⟩ := hostEvent_cases s e
  · rw [h]
    cases a with
    | read off => simp [access, hillegal]
    | write off v => exact regWrite_sets_at_most_one_error hillegal hbusy off v
  · simp [h]
  · simp [h, hillegal]

/-- Settles O47: access first meets a busy block and is refused; completion first leaves an idle block, which issues
the word. -/
theorem cmdWriteMeetingCompletionGoesBothWays : Obligations.CmdWriteMeetingCompletionGoesBothWays := by
  constructor
  · intro s u i off w rest hbusy hi hoff hu
    refine ⟨fun hs => ⟨u.rdata, run_two_write_then_engine hoff hi hu hbusy hs⟩,
      fun hs => ⟨fun j hj => ⟨0, ?_⟩, fun r hr => ⟨0, ?_⟩⟩⟩
    · rw [run_two_engine_then_write hoff hi hu hs, issue_of_decode_ok hj]
      rfl
    · rw [run_two_engine_then_write hoff hi hu hs, issue_of_decode_error hr]
      rfl
  · intro s t e rest hs ht hillegal hbusy
    rw [step_host s e rest hs] at ht
    cases ht
    exact hostEvent_sets_at_most_one_error (s := s.advance) hillegal hbusy e

/-! #### Illegal words (R162) -/

theorem toNat_of_mem_assigned_opcodes :
    ∀ b ∈ ([0x00, 0x01, 0x02, 0x03, 0x04, 0x10, 0x11] : List Byte),
      b.toNat ≤ 0x04 ∨ b.toNat = 0x10 ∨ b.toNat = 0x11 := by
  decide

/-- The words R85 calls illegal are illegal. -/
theorem exists_decode_eq_error_of_illegal {w : Word}
    (h : w.extractLsb' 8 24 ≠ 0 ∨ (5 ≤ (w.extractLsb' 0 8).toNat ∧ (w.extractLsb' 0 8).toNat ≤ 0x0F) ∨
      0x12 ≤ (w.extractLsb' 0 8).toNat) : ∃ r, decode w = .error r := by
  rw [exists_decode_eq_error_iff, exists_decode_eq_ok_iff]
  rintro ⟨hrsvd, hopcode⟩
  have hrange := toNat_of_mem_assigned_opcodes _ hopcode
  obtain hne | hgap | hhigh := h
  · exact hne hrsvd
  · omega
  · omega

/-- Settles O8: an idle CMD write is an issue, and a word with no command is rejected. -/
theorem illegalWordWhileIdleIsRejected : Obligations.IllegalWordWhileIdleIsRejected := by
  intro s off w rest hoff hidle hs hw
  obtain ⟨r, hr⟩ := exists_decode_eq_error_of_illegal hw
  refine ⟨0, ?_⟩
  rw [step_write hs, regWrite_cmd_of_idle hoff, issue_of_decode_error hr]
  · rfl
  · exact hidle

/-! #### Writes while busy (R163) -/

theorem regWrite_readOnly_slot {off : Offset} (h : wordIndex off ∈ [0, 5, 14, 15]) (s : State) (v : Word) :
    regWrite s off v = s := by
  rw [wordIndex_eq off] at h
  cases hr : slotOf off with
  | id | reserved14 | reserved38 | reserved3C => exact regWrite_of_unguarded hr rfl s v
  | _ =>
    rw [hr] at h
    exact absurd h (by decide)

/-- Settles O33: the guarded slots refuse the write, and at the others the write rule does not look at BUSY. -/
theorem guardedWriteWhileBusyIsRefused : Obligations.GuardedWriteWhileBusyIsRefused := by
  intro s off v rest hbusy hs
  rw [step_write hs]
  refine ⟨fun hoff => ⟨0, ?_⟩, fun hoff => ⟨0, ?_⟩, fun hoff => ⟨0, ?_⟩, fun hoff => ⟨0, ?_⟩⟩
  · rw [regWrite_guarded_of_busy hoff]
    · rfl
    · exact hbusy
  · rw [regWrite_ctrl_slot hoff]
    rfl
  · rw [regWrite_status_slot hoff, statusW1C, hbusy]
    rfl
  · rw [regWrite_readOnly_slot hoff]

/-! #### Reads (R170) -/

theorem openWhileBusy_slotOf_iff (off : Offset) :
    openWhileBusy (slotOf off) = true ↔ wordIndex off ∈ [6, 7, 12, 13] := by
  revert off
  decide

theorem slotValue_eq_zero {off : Offset} (h : wordIndex off ∈ [3, 5, 8, 9, 10, 11, 14, 15]) (s : State) :
    slotValue s (slotOf off) = 0 := by
  rw [wordIndex_eq off] at h
  cases hr : slotOf off with
  | cmd | reserved14 | key0 | key1 | key2 | key3 | reserved38 | reserved3C => rfl
  | _ =>
    rw [hr] at h
    exact absurd h (by decide)

theorem not_open_of_idle_or_wordIndex {s : State} {off : Offset}
    (h : s.status.busy = false ∨ wordIndex off ∉ [6, 7, 12, 13]) :
    (s.status.busy && openWhileBusy (slotOf off)) = false := by
  rw [← openWhileBusy_slotOf_iff] at h
  simpa only [Bool.and_eq_false_iff, Bool.not_eq_true] using h

/-- Settles O37: a read has one frame; where it is not open it gives its slot's value, slot by slot. -/
theorem readReturnsTheRegisterUnlessOpen : Obligations.ReadReturnsTheRegisterUnlessOpen := by
  intro s off rest hs
  obtain ⟨x, n, hread, hclosed⟩ := regRead_eq { s with schedule := rest, rdata := 0 } off
  have hvalue (h : s.status.busy = false ∨ wordIndex off ∉ [6, 7, 12, 13]) :
      x = slotValue { s with schedule := rest, rdata := 0 } (slotOf off) :=
    (hclosed (not_open_of_idle_or_wordIndex h)).1
  have hregister (r : Slot) (hr : wordIndex off = wordIndex (offsetOf r))
      (h : s.status.busy = false ∨ wordIndex (offsetOf r) ∉ [6, 7, 12, 13]) :
      x = slotValue { s with schedule := rest, rdata := 0 } r := by
    rw [hvalue (hr ▸ h), (slotOf_eq_iff off r).2 hr]
  have hzero : ∀ k ∈ ([3, 5, 8, 9, 10, 11, 14, 15] : List (BitVec 4)), k ∉ [6, 7, 12, 13] := by decide
  refine ⟨x, n, (step_read hs).trans (congrArg _ hread), ?_, ?_, ?_, ?_, ?_, fun hidle => ⟨?_, ?_, ?_, ?_⟩,
    fun h => (hclosed (not_open_of_idle_or_wordIndex h)).2⟩
  · exact fun hoff => hregister .id hoff (.inr (by decide))
  · exact fun hoff => hregister .ctrl hoff (.inr (by decide))
  · exact fun hoff => hregister .status hoff (.inr (by decide))
  · exact fun hoff => (hvalue (.inr (hzero _ hoff))).trans (slotValue_eq_zero hoff _)
  · exact fun hoff => hregister .arg hoff (.inr (by decide))
  · exact fun hoff => hregister .crcLo hoff (.inl hidle)
  · exact fun hoff => hregister .crcHi hoff (.inl hidle)
  · exact fun hoff => hregister .teaV0 hoff (.inl hidle)
  · exact fun hoff => hregister .teaV1 hoff (.inl hidle)

/-! #### irq (R166) -/

/-- Settles O38: irq is read off CTRL and STATUS. -/
theorem irqIsTheEnabledPendingBits : Obligations.IrqIsTheEnabledPendingBits :=
  ⟨State.irq_eq_true_iff, fun _ _ hctrl hstatus => by rw [State.irq, hctrl, hstatus]; rfl⟩

end Sys2Proof.Machine

/-! ### The reset family: the reset state and the reset turn (70_reset_and_hazards.md R190, R191) -/

namespace Sys2Proof.Machine

/-- A reset turn keeps only the model's own fields: the turns still to come and the count of open values. -/
theorem step_reset {s : State} {d : Option Access} {rest : List Turn}
    (h : s.schedule = .host (.reset d) :: rest) :
    step s = .next { State.reset with schedule := rest, draws := s.draws } := by
  rw [step_host s _ rest h, State.advance_eq h]
  rfl

/-- Settles O1: a reset turn leaves the reset state's registers, whatever the state and the access of its cycle. -/
theorem resetSetsEveryRegister : Obligations.ResetSetsEveryRegister := by
  constructor
  · have hctrl : ctrlWord State.reset.ctrl = 0x00000000 := by decide
    have hstatus : statusWord State.reset.status = 0x00000000 := by decide
    exact ⟨hctrl, hstatus, rfl, rfl, rfl, rfl, rfl, State.irq_of_masked rfl, rfl⟩
  · intro s d rest hs
    exact ⟨_, step_reset hs, rfl, rfl, rfl, rfl, rfl, rfl, rfl, rfl, State.irq_of_masked rfl, rfl, rfl⟩

end Sys2Proof.Machine

/-! ### The rest, first part: every outcome of a step, frames, the invariant and decoding -/

namespace Sys2Proof.Machine

/-! #### Every outcome of a step -/

/-- Settles O4: a completion is an effect, and an event or a quiet step has no way to stop. -/
theorem everyStepAnswersNext : Obligations.EveryStepAnswersNext := by
  intro s
  obtain ⟨i, -, -, h⟩ | ⟨e, l, -, -, h⟩ | ⟨-, -, h⟩ := step_cases s
  · exact ⟨_, h.trans (exec_eq_effect i s.advance)⟩
  · exact ⟨_, h⟩
  · exact ⟨_, h⟩

/-- A step completes the command in flight, delivers an access, resets the block, or only takes the turn. -/
theorem step_next_cases {s t : State} (h : step s = .next t) :
    (∃ i, nextStep s = .command i ∧ t = (effect i s.advance).complete) ∨
    (∃ e l a, s.schedule = .host e :: l ∧ e.delivers = some a ∧ t = access s.advance a) ∨
    (∃ e l, s.schedule = .host e :: l ∧ e.isReset = true ∧ t = s.advance.doReset) ∨
    t = s.advance := by
  obtain ⟨i, -, hn, hstep⟩ | ⟨e, l, hs, -, hstep⟩ | ⟨-, -, hstep⟩ := step_cases s
  · rw [hstep, exec_eq_next_iff] at h
    exact .inl ⟨i, hn, h.symm⟩
  · rw [hstep] at h
    cases h
    obtain ⟨a, hd, -, he⟩ | ⟨-, hr, he⟩ | ⟨-, -, he⟩ := hostEvent_cases s.advance e
    · exact .inr (.inl ⟨e, l, a, hs, hd, he⟩)
    · exact .inr (.inr (.inl ⟨e, l, hs, hr, he⟩))
    · exact .inr (.inr (.inr he))
  · rw [hstep] at h
    cases h
    exact .inr (.inr (.inr rfl))

/-! #### Frames -/

@[simp] theorem effect_ctrl (i : Instr) (s : State) : (effect i s).ctrl = s.ctrl := by
  obtain ⟨a, b, h⟩ := effect_eq i s
  simp [h]

@[simp] theorem effect_arg (i : Instr) (s : State) : (effect i s).arg = s.arg := by
  obtain ⟨a, b, h⟩ := effect_eq i s
  simp [h]

@[simp] theorem effect_rdata (i : Instr) (s : State) : (effect i s).rdata = s.rdata := by
  obtain ⟨a, b, h⟩ := effect_eq i s
  simp [h]

@[simp] theorem effect_draws (i : Instr) (s : State) : (effect i s).draws = s.draws := by
  obtain ⟨a, b, h⟩ := effect_eq i s
  simp [h]

theorem effect_acc_of_not_crc {i : Instr} (h : i ∉ [Instr.crcInit, .crcUpd8, .crcUpd16, .crcUpd32]) (s : State) :
    (effect i s).acc = s.acc := by
  cases i with
  | nop => rfl
  | teaEnc | teaDec => exact State.setBlock_acc s _
  | crcInit | crcUpd8 | crcUpd16 | crcUpd32 => exact absurd (by decide) h

theorem effect_block_of_not_tea {i : Instr} (h : i ∉ [Instr.teaEnc, .teaDec]) (s : State) :
    (effect i s).block = s.block := by
  cases i with
  | nop => rfl
  | crcInit | crcUpd8 | crcUpd16 | crcUpd32 => exact State.setAcc_block s _
  | teaEnc | teaDec => exact absurd (by decide) h

/-- Settles O19: a command's effect is framed, and the shared completion adds INFLIGHT, BUSY and DONE. -/
theorem commandsWriteOnlyTheirResultRegisters : Obligations.CommandsWriteOnlyTheirResultRegisters := by
  intro i s
  refine ⟨_, exec_eq_effect i s, ?_, ?_, ?_, ?_, rfl, ?_, ?_, ?_, fun h => ?_, fun h => ?_⟩
  · simp
  · simp
  · simp
  · simp [statusCompleted]
  · simp
  · simp
  · simp
  · simp [effect_acc_of_not_crc h]
  · simp [effect_block_of_not_tea h]

/-- An issue touches INFLIGHT and STATUS only. -/
theorem issue_eq (s : State) (w : Word) : ∃ i st, issue s w = (s.setInflight i).setStatus st := by
  obtain ⟨i, -, h⟩ | ⟨r, -, h⟩ := issue_cases s w
  · exact ⟨some i, _, h⟩
  · exact ⟨s.inflight, _, h⟩

/-! #### The invariant on BUSY, INFLIGHT and DONE (R26, R27) -/

section

variable {s : State} (h : s.Consistent)
include h

theorem inflight_of_idle (hidle : s.status.busy = false) : s.inflight = none := by
  obtain ⟨hbusy, -⟩ := h
  simpa [hidle] using hbusy

/-- DONE becomes 1, which is why an illegal word may only be issued to an idle block. -/
theorem issue_consistent (hidle : s.status.busy = false) (w : Word) : (issue s w).Consistent := by
  obtain ⟨i, -, hw⟩ | ⟨e, -, hw⟩ := issue_cases s w
  · rw [hw]
    exact ⟨rfl, fun _ => rfl⟩
  · rw [hw]
    exact ⟨h.1, fun hbusy => absurd hbusy (by simp [hidle])⟩

theorem storeSlot_consistent {r : Slot} (hg : (s.status.busy && busyGuarded r) = false) (v : Word) :
    (storeSlot s v r).Consistent := by
  cases r with
  | cmd => exact issue_consistent h (by simpa [busyGuarded] using hg) v
  | status => exact ⟨h.1, fun hbusy => by simp [storeSlot, h.2 hbusy]⟩
  | _ => exact h

theorem access_consistent (a : Access) : (access s a).Consistent := by
  cases a with
  | read off =>
    obtain ⟨v, n, hr, -⟩ := regRead_eq s off
    rw [access, hr]
    exact h
  | write off v =>
    rw [access]
    cases hg : s.status.busy && busyGuarded (slotOf off) with
    | true =>
      rw [regWrite_refused s off v hg]
      exact h
    | false =>
      rw [regWrite_stored s off v hg]
      exact storeSlot_consistent h hg v

end

/-- Settles O3: a completion clears BUSY and INFLIGHT together, a reset sets all three, and every access keeps the
relations. -/
theorem everyStepKeepsBusyAndDoneConsistent : Obligations.EveryStepKeepsBusyAndDoneConsistent := by
  intro s t h hstep
  obtain ⟨i, -, rfl⟩ | ⟨e, l, a, -, -, rfl⟩ | ⟨e, l, -, -, rfl⟩ | rfl := step_next_cases hstep
  · exact ⟨rfl, nofun⟩
  · exact access_consistent (s := s.advance) h a
  · exact ⟨rfl, nofun⟩
  · exact h

/-- Settles O2: idle, nothing in flight, DONE = 0. -/
theorem consistentAfterReset : Obligations.ConsistentAfterReset :=
  ⟨rfl, nofun⟩

/-! #### Decoding is the inverse of encoding (R80, R84) -/

theorem opcodeMap_entries : ∀ p ∈ opcodeMap, p.1 = opcodeOf p.2 := by
  decide

theorem opcodeMap_lookup_eq_some_iff (b : Byte) (i : Instr) : opcodeMap.lookup b = some i ↔ b = opcodeOf i := by
  constructor
  · intro h
    obtain ⟨l, l', hl, -⟩ := List.lookup_eq_some_iff.1 h
    exact opcodeMap_entries (b, i) (by simp [hl])
  · rintro rfl
    exact opcodeMap_lookup_opcodeOf i

theorem append_fieldsOf (w : Word) : (fieldsOf w).rsvd ++ (fieldsOf w).opcode = w :=
  (BitVec.extractLsb'_append_extractLsb'_eq_extractLsb' rfl).trans BitVec.extractLsb'_eq_self

/-- Settles O6: a word is its two fields, and the opcode map has each opcode once. -/
theorem decodeInvertsEncodeOnEveryWord : Obligations.DecodeInvertsEncodeOnEveryWord := by
  refine ⟨fun i => by cases i <;> rfl, fun w i => ⟨fun h => ?_, fun h => h ▸ decode_encode i⟩⟩
  obtain ⟨hrsvd, hopcode⟩ := (decode_eq_ok w i).1 h
  rw [opcodeMap_lookup_eq_some_iff] at hopcode
  rw [← append_fieldsOf w, hrsvd, hopcode, encode]

end Sys2Proof.Machine

/-! ### The rest, second part: accesses (10_state.md section 5, 20_memory.md section 2) -/

namespace Sys2Proof.Machine

/-! #### Accesses to an idle block (R62) -/

theorem slotOf_of_wordIndex {off : Offset} {r : Slot} (h : wordIndex off = wordIndex (offsetOf r)) : slotOf off = r :=
  (slotOf_eq_iff off r).2 h

theorem regWrite_of_idle {s : State} (hidle : s.status.busy = false) (off : Offset) (v : Word) :
    regWrite s off v = storeSlot s v (slotOf off) :=
  regWrite_stored s off v (by simp [hidle])

/-- Settles O34: an idle write is stored, and the clause of each slot is its write rule. -/
theorem writeWhileIdleStoresItsRegister : Obligations.WriteWhileIdleStoresItsRegister := by
  intro s off v rest hidle hs
  have hstore (r : Slot) (hr : wordIndex off = wordIndex (offsetOf r)) :
      step s = .next (storeSlot { s with schedule := rest, rdata := 0 } v r) := by
    rw [step_write hs, regWrite_of_idle, slotOf_of_wordIndex hr]
    exact hidle
  refine ⟨fun hoff => ⟨0, ?_⟩, fun hoff => ⟨0, hstore .ctrl hoff⟩, fun hoff => ⟨0, hstore .arg hoff⟩,
    fun hoff => ⟨0, hstore .crcLo hoff⟩, fun hoff => ⟨0, hstore .crcHi hoff⟩, fun hoff => ⟨0, hstore .key0 hoff⟩,
    fun hoff => ⟨0, hstore .key1 hoff⟩, fun hoff => ⟨0, hstore .key2 hoff⟩, fun hoff => ⟨0, hstore .key3 hoff⟩,
    fun hoff => ⟨0, hstore .teaV0 hoff⟩, fun hoff => ⟨0, hstore .teaV1 hoff⟩⟩
  rw [step_write hs, regWrite_readOnly_slot hoff]

theorem slotValue_setRdata (s : State) (x : Word) (r : Slot) : slotValue (s.setRdata x) r = slotValue s r := by
  cases r <;> rfl

theorem slotValue_advance (s : State) (r : Slot) : slotValue s.advance r = slotValue s r := by
  cases r <;> rfl

theorem step_hostR_of_idle {s : State} (hidle : s.status.busy = false) {r : Slot} {rest : List Turn}
    (hs : s.schedule = hostR r :: rest) : step s = .next (s.advance.setRdata (slotValue s r)) := by
  have hread : regRead s.advance (offsetOf r) = s.advance.setRdata (slotValue s r) := by
    rw [regRead_of_idle (s := s.advance) hidle, slotOf_offsetOf, slotValue_advance]
  exact (step_host s _ rest hs).trans (congrArg _ hread)

theorem idle_reads_give_slotValues {s : State} (hidle : s.status.busy = false) {r r' : Slot} {rest : List Turn}
    (hs : s.schedule = hostR r :: hostR r' :: rest) :
    ∃ t u, step s = .next t ∧ step t = .next u ∧ t.rdata = slotValue s r ∧ u.rdata = slotValue s r' ∧
      u.acc = s.acc := by
  have hsecond := step_hostR_of_idle (s := s.advance.setRdata (slotValue s r)) hidle (congrArg List.tail hs)
  rw [slotValue_setRdata, slotValue_advance] at hsecond
  exact ⟨_, _, step_hostR_of_idle hidle hs, hsecond, State.setRdata_rdata _ _, State.setRdata_rdata _ _, by simp⟩

/-- Settles O50: in either order each read drives its half, and the two halves are ACC. -/
theorem idleReadsOfBothHalvesGiveTheAccumulator : Obligations.IdleReadsOfBothHalvesGiveTheAccumulator := by
  refine fun s rest hidle _ => ⟨fun hs => ?_, fun hs => ?_⟩
  · obtain ⟨t, u, ht, hu, hlo, hhi, hacc⟩ := idle_reads_give_slotValues hidle hs
    exact ⟨t, u, ht, hu, by rw [hlo, hhi]; exact accHi_append_accLo s.acc, hacc⟩
  · obtain ⟨t, u, ht, hu, hhi, hlo, hacc⟩ := idle_reads_give_slotValues hidle hs
    exact ⟨t, u, ht, hu, by rw [hlo, hhi]; exact accHi_append_accLo s.acc, hacc⟩

theorem statusWord_busy (st : Status) : (statusWord st).getLsbD 0 = st.busy := by
  obtain ⟨busy, done, errIllegal, errBusy⟩ := st
  revert busy done errIllegal errBusy
  decide

theorem statusWord_done (st : Status) : (statusWord st).getLsbD 1 = st.done := by
  obtain ⟨busy, done, errIllegal, errBusy⟩ := st
  revert busy done errIllegal errBusy
  decide

/-- Settles O51: the word shows BUSY and DONE, and by the invariant each value named rules out a command in flight. -/
theorem statusReadTellsCompletion : Obligations.StatusReadTellsCompletion := by
  intro s rest hcons hs
  refine ⟨_, (step_read hs).trans (congrArg _ (regRead_status_slot rfl _)), fun hbits => ?_⟩
  rw [State.setRdata_rdata, statusWord_busy, statusWord_done] at hbits
  refine inflight_of_idle hcons ?_
  obtain hbusy | hdone := hbits
  · exact hbusy
  · by_contra hbusy
    simp [hcons.2 (by simpa using hbusy)] at hdone

/-! #### Offsets and bus addresses (R61, R63) -/

/-- Settles O39: an access looks at its offset through the slot alone. -/
theorem lowOffsetBitsDoNotReachTheBlock : Obligations.LowOffsetBitsDoNotReachTheBlock := by
  intro s off off' v h
  simp only [regRead, regWrite, slotOf_eq_of_wordIndex h, and_self]

theorem windowOffset_inside (off : Offset) : windowOffset (Config.blockBase + off.toNat) = some off := by
  have := off.isLt
  rw [windowOffset, if_pos (by omega), Nat.add_sub_cancel_left, BitVec.ofNat_toNat, BitVec.setWidth_eq]

theorem windowOffset_outside {addr : Nat} (h : addr < Config.blockBase ∨ Config.blockBase + 64 ≤ addr) :
    windowOffset addr = none :=
  if_neg (by omega)

theorem busAccess_inside (s : State) (off : Offset) :
    busAccess s (Config.blockBase + off.toNat) .read = regRead s off ∧
    ∀ v, busAccess s (Config.blockBase + off.toNat) (.write v) = regWrite s off v := by
  simp [busAccess, windowOffset_inside]

theorem busAccess_outside (s : State) {addr : Nat} (h : addr < Config.blockBase ∨ Config.blockBase + 64 ≤ addr)
    (op : BusOp) : busAccess s addr op = s := by
  simp [busAccess, windowOffset_outside h]

theorem step_bus {s : State} {addr : Nat} {op : BusOp} {rest : List Turn}
    (h : s.schedule = .host (.bus addr op) :: rest) :
    step s = .next (busAccess { s with schedule := rest, rdata := 0 } addr op) := by
  rw [step_host s _ rest h, State.advance_eq h]
  rfl

/-- Settles O40: the decoder's range test inverts the addition of BLOCK_BASE and fails outside. -/
theorem busAddressSelectsTheWindow : Obligations.BusAddressSelectsTheWindow := by
  intro s rest
  refine ⟨fun off hs => ?_, fun off v hs => ?_, fun addr op haddr hs => ?_⟩
  · rw [step_bus hs, (busAccess_inside _ off).1, step_read rfl]
  · rw [step_bus hs, (busAccess_inside _ off).2, step_write rfl]
  · rw [step_bus hs, busAccess_outside _ haddr]

/-! #### Repeated accesses (R65) -/

theorem regRead_of_not_open {s : State} {off : Offset} (h : (s.status.busy && openWhileBusy (slotOf off)) = false) :
    regRead s off = s.setRdata (slotValue s (slotOf off)) := by
  simp [regRead, h]

theorem regRead_regRead {s : State} {off : Offset} (h : (s.status.busy && openWhileBusy (slotOf off)) = false) :
    regRead (regRead s off) off = regRead s off := by
  have hagain := regRead_of_not_open (s := s.setRdata (slotValue s (slotOf off))) h
  rw [regRead_of_not_open h, hagain, slotValue_setRdata]
  rfl

theorem storeSlot_busy {r : Slot} (hr : r ≠ .cmd) (s : State) (v : Word) :
    (storeSlot s v r).status.busy = s.status.busy := by
  cases r with
  | cmd => exact absurd rfl hr
  | _ => rfl

theorem storeSlot_storeSlot {r : Slot} (hr : r ≠ .cmd) (s : State) (v : Word) :
    storeSlot (storeSlot s v r) v r = storeSlot s v r := by
  cases r with
  | cmd => exact absurd rfl hr
  | status => simp [storeSlot, State.setStatus, statusW1C]
  | crcLo => simp [storeSlot, State.setAcc, withAccLo]
  | crcHi => simp [storeSlot, State.setAcc, withAccHi]
  | _ => rfl

theorem regWrite_regWrite {off : Offset} (hoff : wordIndex off ≠ 3) (s : State) (v : Word) :
    regWrite (regWrite s off v) off v = regWrite s off v := by
  have hr : slotOf off ≠ .cmd := mt (slotOf_eq_cmd_iff off).1 hoff
  cases hg : s.status.busy && busyGuarded (slotOf off) with
  | true =>
    rw [regWrite_refused s off v hg, regWrite_refused s.raiseBusy off v hg]
    rfl
  | false =>
    have hg' : ((storeSlot s v (slotOf off)).status.busy && busyGuarded (slotOf off)) = false := by
      rwa [storeSlot_busy hr]
    rw [regWrite_stored s off v hg, regWrite_stored _ off v hg', storeSlot_storeSlot hr]

/-- Settles O41: a refused write is refused again, a stored value is stored again, and a closed read keeps what it
reads. -/
theorem repeatedAccessIsIdempotentExceptCmd : Obligations.RepeatedAccessIsIdempotentExceptCmd := by
  refine fun s off v => ⟨fun hoff => regWrite_regWrite hoff s v, fun h => ?_⟩
  exact regRead_regRead (not_open_of_idle_or_wordIndex h)

/-! #### What a write leaves alone -/

theorem storeSlot_rdata (s : State) (v : Word) (r : Slot) : (storeSlot s v r).rdata = s.rdata := by
  cases r with
  | cmd =>
    obtain ⟨i, st, h⟩ := issue_eq s v
    simp [storeSlot, h]
  | _ => rfl

theorem storeSlot_draws (s : State) (v : Word) (r : Slot) : (storeSlot s v r).draws = s.draws := by
  cases r with
  | cmd =>
    obtain ⟨i, st, h⟩ := issue_eq s v
    simp [storeSlot, h]
  | _ => rfl

theorem regWrite_rdata (s : State) (off : Offset) (v : Word) : (regWrite s off v).rdata = s.rdata := by
  unfold regWrite
  split
  · rfl
  · exact storeSlot_rdata s v _

/-- Settles O53: the turn sets `rdata` to 0, and neither a completion nor a write nor a reset sets it again. -/
theorem stepsThatReadNothingLeaveRdataZero : Obligations.StepsThatReadNothingLeaveRdataZero := by
  intro s t hstep hread
  obtain ⟨i, -, rfl⟩ | ⟨e, l, a, hs, hd, rfl⟩ | ⟨e, l, -, -, rfl⟩ | rfl := step_next_cases hstep
  · simp
  · cases a with
    | read off => exact absurd hd (hread e l off hs)
    | write off v => exact regWrite_rdata s.advance off v
  · rfl
  · rfl

/-- Settles O49: without a hazard a read is closed and a write is stored. -/
theorem hazardFreeAccessRaisesNoBusyError : Obligations.HazardFreeAccessRaisesNoBusyError := by
  intro s a rest hs hfree
  refine ⟨_, step_host s _ rest hs, ?_⟩
  cases a with
  | read off =>
    have hread : hostEvent s.advance (.access (.read off)) = s.advance.setRdata (slotValue s.advance (slotOf off)) :=
      regRead_of_not_open hfree
    simp [hread]
  | write off v =>
    have hwrite : hostEvent s.advance (.access (.write off v)) = storeSlot s.advance v (slotOf off) :=
      regWrite_stored s.advance off v hfree
    rw [hwrite]
    exact ⟨errBusy_of_errBusy_storeSlot, storeSlot_draws s.advance v _⟩

end Sys2Proof.Machine

/-! ### The rest, third part: the two units (40_tea.md sections 1 and 2, 41_crc64.md sections 1 to 3) -/

namespace Sys2Proof.Machine

/-! #### TEA's loops over triples of words (R103, R104) -/

/-- A round's registers as the triple the spec's loop carries. -/
def TeaRegs.triple (r : TeaRegs) : Word × Word × Word := (r.sum, r.v0, r.v1)

/-- A loop over triples that does a round's work is that many rounds. -/
theorem foldl_triple {f : TeaRegs → TeaRegs} {g : Word × Word × Word → Word × Word × Word}
    (h : Function.Semiconj TeaRegs.triple f g) (n : Nat) (r : TeaRegs) :
    (List.range n).foldl (fun p _ => g p) r.triple = (f^[n] r).triple := by
  rw [List.foldl_const, List.length_range]
  exact (h.iterate_right n r).symm

/-- A command whose effect writes the block alone changes besides only what the shared completion does (R91). -/
theorem exec_of_effect_eq_setBlock {i : Instr} {s : State} {b : TeaBlock} (h : effect i s = s.setBlock b) :
    exec i s = .next { s with
      block := b, inflight := none, status := { s.status with busy := false, done := true } } := by
  rw [exec_eq_effect, h]
  rfl

theorem effect_teaEnc (s : State) : effect .teaEnc s = s.setBlock (teaEncrypt s.key s.block) := rfl

theorem effect_teaDec (s : State) : effect .teaDec s = s.setBlock (teaDecrypt s.key s.block) := rfl

/-- Settles O17: a triple and a round's registers hold the same words, and the block is those of the last round. -/
theorem teaEncRunsThirtyTwoRounds : Obligations.TeaEncRunsThirtyTwoRounds := by
  refine ⟨commandProtocol_encode .teaEnc, fun s => ?_⟩
  intro r
  have hr : r = (teaEncLoop s.key teaRounds ⟨0, s.block.v0, s.block.v1⟩).triple :=
    foldl_triple (f := teaEncRound s.key) (fun _ => rfl) teaRounds ⟨0, s.block.v0, s.block.v1⟩
  rw [exec_of_effect_eq_setBlock (effect_teaEnc s), hr]
  rfl

/-- Settles O18: the same for decryption's rounds. -/
theorem teaDecRunsThirtyTwoRounds : Obligations.TeaDecRunsThirtyTwoRounds := by
  refine ⟨commandProtocol_encode .teaDec, fun s => ?_⟩
  intro r
  have hr : r = (teaDecLoop s.key teaRounds ⟨teaDecStart, s.block.v0, s.block.v1⟩).triple :=
    foldl_triple (f := teaDecRound s.key) (fun _ => rfl) teaRounds ⟨teaDecStart, s.block.v0, s.block.v1⟩
  rw [exec_of_effect_eq_setBlock (effect_teaDec s), hr]
  rfl

/-- Settles O32: both loops move `sum` by a multiple of DELTA, and 32 times DELTA is decryption's start. -/
theorem teaSumSchedule : Obligations.TeaSumSchedule := fun k _ _ =>
  ⟨fun n => (teaEncLoop_sum k n _).trans (BitVec.zero_add _), teaEncLoop_teaRounds_sum k rfl,
    teaDecLoop_teaRounds_sum k rfl⟩

/-- Settles O29: the values are computed, and the second is the first undone. -/
theorem teaWorkedValues : Obligations.TeaWorkedValues := by
  have hzero : teaEncrypt ⟨0, 0, 0, 0⟩ ⟨0, 0⟩ = ⟨0x41EA3A0A, 0x94BAA940⟩ := by decide +kernel
  exact ⟨hzero, hzero ▸ teaDecrypt_teaEncrypt _ _, by decide +kernel, by decide +kernel⟩

/-! #### The bit-serial division (R121, R122, 90_conflicts.md C3) -/

/-- One message bit divided in: the remainder's bit 0 decides together with it. -/
def crcSerialStep (c : DWord) (bit : Bool) : DWord := if c.getLsbD 0 ^^ bit then (c >>> 1) ^^^ crcPoly else c >>> 1

/-- A round over a remainder and message bits still to come is the division by the first of them; the others move
down. -/
theorem crcRound_xor_message (c x : DWord) : crcRound (c ^^^ x) = crcSerialStep c (x.getLsbD 0) ^^^ (x >>> 1) := by
  unfold crcRound crcSerialStep
  rw [BitVec.getLsbD_xor, BitVec.ushiftRight_xor_distrib]
  split <;> ac_rfl

/-- The rounds take in the low bits of `x` one at a time and leave the rest of it. -/
theorem crcRounds_xor_message (n : Nat) (c x : DWord) :
    crcRounds n (c ^^^ x) = ((List.range n).map x.getLsbD).foldl crcSerialStep c ^^^ (x >>> n) := by
  induction n with
  | zero => simp
  | succ n ih =>
    rw [crcRounds_succ_last, ih, crcRound_xor_message, List.range_succ, List.map_append, List.foldl_append,
      ← BitVec.shiftRight_add]
    simp

/-- A byte has no bits above its eight. -/
theorem setWidth_byte_ushiftRight (b : Byte) : b.setWidth 64 >>> 8 = 0#64 := by
  apply BitVec.eq_of_getLsbD_eq
  intro i hi
  simp

theorem byteBits_setWidth (b : Byte) : (List.range 8).map (b.setWidth 64).getLsbD = (List.range 8).map b.getLsbD := by
  refine List.map_inj_left.2 fun i hi => ?_
  have hlt : i < 8 := List.mem_range.1 hi
  simp [hlt.trans (by decide : 8 < 64)]

theorem byteBits_extractLsb' (x : DWord) :
    (List.range 8).map (x.extractLsb' 0 8).getLsbD = (List.range 8).map x.getLsbD := by
  refine List.map_inj_left.2 fun i hi => ?_
  simp [List.mem_range.1 hi]

theorem crcRounds_xor_byte (a : DWord) (b : Byte) :
    crcRounds 8 (a ^^^ b.setWidth 64) = ((List.range 8).map b.getLsbD).foldl crcSerialStep a := by
  rw [crcRounds_xor_message, setWidth_byte_ushiftRight, BitVec.xor_zero, byteBits_setWidth]

theorem tableEntry_eq_serial (b : Byte) :
    tableEntry b = ((List.range 8).map b.getLsbD).foldl crcSerialStep 0#64 := by
  rw [← crcRounds_xor_byte, BitVec.zero_xor, tableEntry]

/-- The table entry divides the low byte, and the bits above it only move down. -/
theorem fold_eq_crcRounds (a : DWord) (b : Byte) : fold a b = crcRounds 8 (a ^^^ b.setWidth 64) := by
  have hrounds := crcRounds_xor_message 8 0#64 (a ^^^ b.setWidth 64)
  rw [BitVec.zero_xor, BitVec.ushiftRight_xor_distrib, setWidth_byte_ushiftRight, BitVec.xor_zero] at hrounds
  rw [hrounds, fold, tableEntry_eq_serial, byteBits_extractLsb']

theorem fold_eq_serial (a : DWord) (b : Byte) :
    fold a b = ((List.range 8).map b.getLsbD).foldl crcSerialStep a :=
  (fold_eq_crcRounds a b).trans (crcRounds_xor_byte a b)

/-- Settles O22: the fold of a byte is the division by its eight bits, and a message's bits are its bytes' bits. -/
theorem tableCrcEqualsBitSerialDivision : Obligations.TableCrcEqualsBitSerialDivision := by
  intro m
  have hfold : fold = fun a b => ((List.range 8).map b.getLsbD).foldl crcSerialStep a :=
    funext₂ fold_eq_serial
  rw [crc64, foldBytes, hfold]
  exact List.foldl_flatMap.symm

/-! #### Different bytes give different remainders (R135) -/

/-- The polynomial's top bit is 1 and the shift leaves 0 there, so a round's top bit is the bit it shifted out. -/
theorem crcRound_topBit (c : DWord) : (crcRound c).getLsbD 63 = c.getLsbD 0 := by
  have hpoly : crcPoly.getLsbD 63 = true := by decide
  have hshift : (c >>> 1).getLsbD 63 = false := by simp
  rw [crcRound_eq_xor, BitVec.getLsbD_xor, hshift, Bool.false_xor]
  split
  next h => rw [h, hpoly]
  next h => simpa using h

theorem crcRound_injective : Function.Injective crcRound := by
  intro c d h
  have hzero : c.getLsbD 0 = d.getLsbD 0 := by rw [← crcRound_topBit, h, crcRound_topBit]
  have hshift : c >>> 1 = d >>> 1 := by
    rw [crcRound_eq_xor, crcRound_eq_xor, hzero] at h
    exact (BitVec.xor_left_inj _).1 h
  apply BitVec.eq_of_getLsbD_eq
  intro i _
  cases i with
  | zero => exact hzero
  | succ i => simpa [Nat.add_comm] using congrArg (·.getLsbD i) hshift

theorem crcRounds_injective (n : Nat) : Function.Injective (crcRounds n) := crcRound_injective.iterate n

theorem fold_injective_left (b : Byte) : Function.Injective (fold · b) := by
  intro a a' h
  simp only [fold_eq_crcRounds] at h
  exact (BitVec.xor_left_inj _).1 (crcRounds_injective 8 h)

theorem fold_injective_right (a : DWord) : Function.Injective (fold a) := by
  intro b b' h
  rw [fold_eq_crcRounds, fold_eq_crcRounds] at h
  have hbyte := congrArg (BitVec.setWidth 8) ((BitVec.xor_right_inj _).1 (crcRounds_injective 8 h))
  simpa using hbyte

theorem foldBytes_injective (m : List Byte) : Function.Injective (foldBytes · m) := by
  induction m with
  | nil => exact fun _ _ h => h
  | cons b m ih => exact ih.comp (fold_injective_left b)

/-- Settles O27: the changed byte changes the accumulator, and the bytes after it keep the difference. -/
theorem changingOneByteChangesTheCrc : Obligations.ChangingOneByteChangesTheCrc := by
  intro m n b b' hne h
  simp only [crc64, foldBytes_append, foldBytes_cons] at h
  exact hne (fold_injective_right _ (foldBytes_injective n h))

/-! #### Updates of one, two and four bytes (R83, R132, R134) -/

@[simp] theorem effect_crcUpd8_acc (s : State) :
    (effect .crcUpd8 s).acc = foldBytes s.acc [argByte0 s.arg] := rfl

@[simp] theorem effect_crcUpd16_acc (s : State) :
    (effect .crcUpd16 s).acc = foldBytes s.acc [argByte0 s.arg, argByte1 s.arg] := rfl

@[simp] theorem effect_crcUpd32_acc (s : State) : (effect .crcUpd32 s).acc =
    foldBytes s.acc [argByte0 s.arg, argByte1 s.arg, argByte2 s.arg, argByte3 s.arg] := rfl

/-- A byte of a part of a word, the part written to ARG, is a byte of the word. -/
theorem extractLsb'_setWidth_part (x : Word) {start len i : Nat} (hi : i + 8 ≤ len) (hlen : len ≤ 32) :
    ((x.extractLsb' start len).setWidth 32).extractLsb' i 8 = x.extractLsb' (start + i) 8 := by
  rw [BitVec.extractLsb'_setWidth_of_le (by omega)]
  apply BitVec.eq_of_getLsbD_eq
  intro k hk
  simp [hk, show i + k < len by omega, Nat.add_assoc]

theorem extractLsb'_lowHalf {x y : Word} (h : x.extractLsb' 0 16 = y.extractLsb' 0 16) :
    argByte0 x = argByte0 y ∧ argByte1 x = argByte1 y := by
  have hbyte (start : Nat) (hs : start + 8 ≤ 16) : x.extractLsb' start 8 = y.extractLsb' start 8 := by
    rw [← BitVec.extractLsb'_extractLsb'_of_le hs, h, BitVec.extractLsb'_extractLsb'_of_le hs]
  exact ⟨hbyte 0 (by decide), hbyte 8 (by decide)⟩

/-- Settles O25: an update looks at ARG through its bytes alone. -/
theorem unusedArgBitsAreIgnored : Obligations.UnusedArgBitsAreIgnored := by
  refine fun s x => ⟨fun h => ⟨_, _, exec_eq_effect _ _, exec_eq_effect _ _, ?_⟩,
    fun h => ⟨_, _, exec_eq_effect _ _, exec_eq_effect _ _, ?_⟩⟩
  · have hbyte : argByte0 x = argByte0 s.arg := h
    simp [hbyte]
  · obtain ⟨hlo, hhi⟩ := extractLsb'_lowHalf h
    simp [hlo, hhi]

/-- Settles O26: each command's ACC is a function of ACC and ARG. -/
theorem crcResultDependsOnAccAndArgOnly : Obligations.CrcResultDependsOnAccAndArgOnly := by
  intro i s s' hi hacc harg
  refine ⟨_, _, exec_eq_effect i s, exec_eq_effect i s', ?_⟩
  cases i with
  | crcInit => rfl
  | crcUpd8 | crcUpd16 | crcUpd32 => simp [hacc, harg]
  | nop | teaEnc | teaDec => exact absurd hi (by decide)

/-- Settles O24: the bytes of ARG's parts are ARG's bytes in order, and a fold over them may stop in between. -/
theorem widerUpdatesGroupIntoByteUpdates : Obligations.WiderUpdatesGroupIntoByteUpdates := by
  refine fun s => ⟨⟨_, _, _, exec_eq_effect _ _, exec_eq_effect _ _, exec_eq_effect _ _, ?_⟩,
    ⟨_, _, _, exec_eq_effect _ _, exec_eq_effect _ _, exec_eq_effect _ _, ?_⟩⟩
  · have hlo : argByte0 ((s.arg.extractLsb' 0 8).setWidth 32) = argByte0 s.arg :=
      extractLsb'_setWidth_part s.arg (by decide) (by decide)
    have hhi : argByte0 ((s.arg.extractLsb' 8 8).setWidth 32) = argByte1 s.arg :=
      extractLsb'_setWidth_part s.arg (by decide) (by decide)
    simp [hlo, hhi]
  · have h0 : argByte0 ((s.arg.extractLsb' 0 16).setWidth 32) = argByte0 s.arg :=
      extractLsb'_setWidth_part s.arg (by decide) (by decide)
    have h1 : argByte1 ((s.arg.extractLsb' 0 16).setWidth 32) = argByte1 s.arg :=
      extractLsb'_setWidth_part s.arg (by decide) (by decide)
    have h2 : argByte0 ((s.arg.extractLsb' 16 16).setWidth 32) = argByte2 s.arg :=
      extractLsb'_setWidth_part s.arg (by decide) (by decide)
    have h3 : argByte1 ((s.arg.extractLsb' 16 16).setWidth 32) = argByte3 s.arg :=
      extractLsb'_setWidth_part s.arg (by decide) (by decide)
    simp [h0, h1, h2, h3]

end Sys2Proof.Machine

/-! ### The rest, fourth part: what can change a register, and what the key cannot (10_state.md section 5) -/

namespace Sys2Proof.Machine

/-! #### The data registers (R163, R82) -/

/-- The four data registers. One argument serves all. -/
inductive DataReg where
  | key
  | arg
  | acc
  | block

/-- Both states hold the same value in the register. -/
def DataReg.Kept : DataReg → State → State → Prop
  | .key, s, t => t.key = s.key
  | .arg, s, t => t.arg = s.arg
  | .acc, s, t => t.acc = s.acc
  | .block, s, t => t.block = s.block

/-- The word indices the register is listed at (10_state.md R21). -/
def DataReg.indices : DataReg → List (BitVec 4)
  | .key => [8, 9, 10, 11]
  | .arg => [4]
  | .acc => [6, 7]
  | .block => [12, 13]

/-- The commands that write the register (30_encoding.md R82). -/
def DataReg.commands : DataReg → List Instr
  | .key => []
  | .arg => []
  | .acc => [.crcInit, .crcUpd8, .crcUpd16, .crcUpd32]
  | .block => [.teaEnc, .teaDec]

/-- The next turn is a reset, or a write to the register of an idle block. -/
def DataReg.ChangedFromOutside (d : DataReg) (s : State) : Prop :=
  ∃ e rest, s.schedule = .host e :: rest ∧
    (e.isReset = true ∨
      ∃ off v, e.delivers = some (.write off v) ∧ wordIndex off ∈ d.indices ∧ s.status.busy = false)

namespace DataReg

variable {d : DataReg}

theorem kept_effect {i : Instr} (h : i ∉ d.commands) (s : State) : d.Kept s (effect i s).complete := by
  cases d with
  | key => exact effect_key i s
  | arg => exact effect_arg i s
  | acc => exact effect_acc_of_not_crc h s
  | block => exact effect_block_of_not_tea h s

variable (d)

theorem kept_regRead (s : State) (off : Offset) : d.Kept s (regRead s off) := by
  obtain ⟨v, n, h, -⟩ := regRead_eq s off
  rw [h]
  cases d <;> rfl

theorem kept_issue (s : State) (w : Word) : d.Kept s (issue s w) := by
  obtain ⟨i, st, h⟩ := issue_eq s w
  rw [h]
  cases d <;> rfl

theorem guarded_of_mem_indices {off : Offset} (h : wordIndex off ∈ d.indices) : busyGuarded (slotOf off) = true := by
  rw [busyGuarded_slotOf_iff]
  revert h
  generalize wordIndex off = k
  revert k
  cases d <;> decide

variable {d}

theorem kept_storeSlot {r : Slot} (h : wordIndex (offsetOf r) ∉ d.indices) (s : State) (v : Word) :
    d.Kept s (storeSlot s v r) := by
  cases r with
  | id | reserved14 | reserved38 | reserved3C | ctrl | status => cases d <;> rfl
  | cmd => exact d.kept_issue s v
  | arg => cases d with
    | arg => exact absurd (by decide) h
    | _ => rfl
  | crcLo | crcHi => cases d with
    | acc => exact absurd (by decide) h
    | _ => rfl
  | key0 | key1 | key2 | key3 => cases d with
    | key => exact absurd (by decide) h
    | _ => rfl
  | teaV0 | teaV1 => cases d with
    | block => exact absurd (by decide) h
    | _ => rfl

theorem idle_of_not_kept_regWrite {s : State} {off : Offset} {v : Word} (h : ¬d.Kept s (regWrite s off v)) :
    wordIndex off ∈ d.indices ∧ s.status.busy = false := by
  cases hg : s.status.busy && busyGuarded (slotOf off) with
  | true =>
    rw [regWrite_refused s off v hg] at h
    exact absurd (by cases d <;> rfl) h
  | false =>
    rw [regWrite_stored s off v hg] at h
    have hoff : wordIndex off ∈ d.indices := by
      by_contra hoff
      exact h (kept_storeSlot (wordIndex_eq off ▸ hoff) s v)
    exact ⟨hoff, by simpa [d.guarded_of_mem_indices hoff] using hg⟩

theorem changed_by_step {s t : State} (hstep : step s = .next t) (h : ¬d.Kept s t) :
    d.ChangedFromOutside s ∨ ∃ i, nextStep s = .command i ∧ i ∈ d.commands := by
  have h : ¬d.Kept s.advance t := by cases d <;> exact h
  obtain ⟨i, hn, rfl⟩ | ⟨e, l, a, hs, hd, rfl⟩ | ⟨e, l, hs, hr, rfl⟩ | rfl := step_next_cases hstep
  · refine .inr ⟨i, hn, ?_⟩
    by_contra hi
    exact h (kept_effect hi s.advance)
  · cases a with
    | read off => exact absurd (d.kept_regRead s.advance off) h
    | write off v => exact .inl ⟨e, l, hs, .inr ⟨off, v, hd, idle_of_not_kept_regWrite (s := s.advance) h⟩⟩
  · exact .inl ⟨e, l, hs, .inl hr⟩
  · exact absurd (by cases d <;> rfl) h

end DataReg

/-- Settles O43: the same argument for each data register; no command writes KEY or ARG. -/
theorem onlyIdleWritesCommandsAndResetChangeData : Obligations.OnlyIdleWritesCommandsAndResetChangeData := by
  intro s t hstep
  have no_command {P : Prop} (h : P ∨ ∃ i, nextStep s = .command i ∧ i ∈ ([] : List Instr)) : P := by simpa using h
  exact ⟨fun h => no_command (DataReg.changed_by_step (d := .key) hstep h),
    fun h => no_command (DataReg.changed_by_step (d := .arg) hstep h),
    DataReg.changed_by_step (d := .acc) hstep, DataReg.changed_by_step (d := .block) hstep⟩

/-! #### Events at a busy block (R93, R163) -/

/-- An unguarded slot's write touches CTRL and the W1C bits alone. -/
theorem storeSlot_of_unguarded {r : Slot} (h : busyGuarded r = false) (s : State) (v : Word) :
    ∃ c w, storeSlot s v r = (s.setCtrl c).setStatus (statusW1C s.status w) := by
  cases r with
  | id | reserved14 | reserved38 | reserved3C => exact ⟨s.ctrl, 0, by simp [storeSlot, statusW1C]; rfl⟩
  | ctrl => exact ⟨ctrlOfWord v, 0, by simp [storeSlot, statusW1C]; rfl⟩
  | status => exact ⟨s.ctrl, v, rfl⟩
  | _ => exact absurd h (by decide)

/-- What no access to a busy block changes: operands, results, the command in flight and BUSY; of the other bits,
ERR_ILLEGAL and DONE are at most cleared. -/
structure Frozen (s t : State) : Prop where
  arg : t.arg = s.arg
  acc : t.acc = s.acc
  key : t.key = s.key
  block : t.block = s.block
  inflight : t.inflight = s.inflight
  schedule : t.schedule = s.schedule
  busy : t.status.busy = s.status.busy
  errIllegal : t.status.errIllegal = true → s.status.errIllegal = true
  done : t.status.done = true → s.status.done = true

theorem Frozen.refl (s : State) : Frozen s s := ⟨rfl, rfl, rfl, rfl, rfl, rfl, rfl, id, id⟩

theorem frozen_regWrite {s : State} (hbusy : s.status.busy = true) (off : Offset) (v : Word) :
    Frozen s (regWrite s off v) := by
  cases hg : busyGuarded (slotOf off) with
  | true =>
    rw [regWrite_refused s off v (by simp [hbusy, hg])]
    exact ⟨rfl, rfl, rfl, rfl, rfl, rfl, rfl, id, id⟩
  | false =>
    obtain ⟨c, w, h⟩ := storeSlot_of_unguarded hg s v
    rw [regWrite_of_unguarded rfl hg, h]
    exact ⟨rfl, rfl, rfl, rfl, rfl, rfl, rfl, fun h => (Bool.and_eq_true_iff.1 h).1,
      fun h => (Bool.and_eq_true_iff.1 h).1⟩

theorem frozen_hostEvent {s : State} (hbusy : s.status.busy = true) {e : HostEvent} (hr : e.isReset = false) :
    Frozen s (hostEvent s e) := by
  obtain ⟨a, -, -, h⟩ | ⟨-, hreset, -⟩ | ⟨-, -, h⟩ := hostEvent_cases s e
  · rw [h]
    cases a with
    | read off =>
      obtain ⟨v, n, hread, -⟩ := regRead_eq s off
      rw [access, hread]
      exact ⟨rfl, rfl, rfl, rfl, rfl, rfl, rfl, id, id⟩
    | write off v => exact frozen_regWrite hbusy off v
  · simp [hr] at hreset
  · rw [h]
    exact Frozen.refl s

/-- Settles O44: taking the turn changes no register, and the event finds the block busy. -/
theorem operandsAreFrozenWhileBusy : Obligations.OperandsAreFrozenWhileBusy := by
  intro s e rest hbusy hs hr
  obtain ⟨harg, hacc, hkey, hblock, hinflight, -, hbusy', herr, hdone⟩ := frozen_hostEvent (s := s.advance) hbusy hr
  exact ⟨_, step_host s e rest hs, harg, hacc, hkey, hblock, hinflight, hbusy'.trans hbusy, herr, hdone⟩

theorem nextStep_of_no_event {s : State} (h : s.schedule = [] ∨ ∃ rest, s.schedule = .engine :: rest) :
    nextStep s = engineTurn s := by
  obtain h | ⟨rest, h⟩ := h
  · exact nextStep_empty s h
  · exact nextStep_engine s rest h

theorem step_of_no_event {s : State} {i : Instr} (h : s.schedule = [] ∨ ∃ rest, s.schedule = .engine :: rest)
    (hi : s.inflight = some i) : step s = exec i s.advance :=
  step_of_command s i ((nextStep_of_no_event h).trans (engineTurn_some s i hi))

/-- Settles O45, by induction on the turns before the engine's: each leaves the block busy and its operands frozen. -/
theorem commandInFlightCompletesUnderAnyTraffic : Obligations.CommandInFlightCompletesUnderAnyTraffic := by
  intro s i hbusy hi hquiet
  induction hs : s.schedule generalizing s with
  | nil => exact ⟨0, s, Nat.zero_le _, rfl, rfl, rfl, rfl, rfl, hi, step_of_no_event (.inl hs) hi⟩
  | cons turn rest ih =>
    cases turn with
    | engine => exact ⟨0, s, Nat.zero_le _, rfl, rfl, rfl, rfl, rfl, hi, step_of_no_event (.inr ⟨rest, hs⟩) hi⟩
    | host e =>
      rw [hs] at hquiet
      obtain ⟨hr, hrest⟩ := List.forall_mem_cons.1 hquiet
      obtain ⟨harg, hacc, hkey, hblock, hinflight, hschedule, hbusy', -, -⟩ :=
        frozen_hostEvent (s := s.advance) hbusy hr
      have hrest' : (hostEvent s.advance e).schedule = rest := by rw [hschedule, State.advance_schedule, hs]; rfl
      obtain ⟨k, t, hk, hrun, harg', hacc', hkey', hblock', ht⟩ :=
        ih (hostEvent s.advance e) (hbusy'.trans hbusy) (hinflight.trans hi) (hrest' ▸ hrest) hrest'
      exact ⟨k + 1, t, Nat.succ_le_succ hk, (run_succ k (step_host s e rest hs)).trans hrun, harg'.trans harg,
        hacc'.trans hacc, hkey'.trans hkey, hblock'.trans hblock, ht⟩

/-- Settles O52: an empty schedule and a scheduled engine's turn are the same turn, quiet where nothing is in
flight. -/
theorem exhaustedScheduleGivesTheEngineItsTurn : Obligations.ExhaustedScheduleGivesTheEngineItsTurn := by
  refine fun s => ⟨fun hs => ?_, fun hs hi => ?_⟩
  · have hnext : nextStep { s with schedule := [.engine] } = nextStep s := by
      rw [nextStep_engine _ [] rfl, nextStep_empty s hs]
      rfl
    have hadvance : State.advance { s with schedule := [.engine] } = s.advance := by
      simp [State.advance, State.setSchedule, hs]
    rw [step, step, hnext, hadvance]
  · exact step_of_quiet s ((nextStep_of_no_event hs).trans (engineTurn_none s hi))

/-! #### The key (R34, 60_exceptions.md section 4) -/

theorem slotValue_setKey (s : State) (k : TeaKey) (r : Slot) : slotValue (s.setKey k) r = slotValue s r := by
  cases r <;> rfl

theorem regRead_setKey (s : State) (k : TeaKey) (off : Offset) :
    regRead (s.setKey k) off = (regRead s off).setKey k := by
  cases ho : s.status.busy && openWhileBusy (slotOf off) with
  | true =>
    simp only [regRead, State.setKey_status, ho, if_true]
    rfl
  | false =>
    rw [regRead_of_not_open ho, regRead_of_not_open (s := s.setKey k) ho, slotValue_setKey]
    rfl

theorem issue_setKey (s : State) (k : TeaKey) (w : Word) : issue (s.setKey k) w = (issue s w).setKey k := by
  unfold issue
  split <;> rfl

/-- A store gives two states with different keys the same registers but the key. -/
theorem storeSlot_setKey (s : State) (k : TeaKey) (v : Word) (r : Slot) :
    ∃ k', storeSlot (s.setKey k) v r = (storeSlot s v r).setKey k' := by
  cases r with
  | cmd => exact ⟨k, issue_setKey s k v⟩
  | key0 | key1 | key2 | key3 => exact ⟨_, rfl⟩
  | _ => exact ⟨k, rfl⟩

theorem access_setKey (s : State) (k : TeaKey) (a : Access) :
    ∃ k', access (s.setKey k) a = (access s a).setKey k' := by
  cases a with
  | read off => exact ⟨k, regRead_setKey s k off⟩
  | write off v =>
    rw [access, access]
    cases hg : s.status.busy && busyGuarded (slotOf off) with
    | true =>
      rw [regWrite_refused s off v hg, regWrite_refused (s.setKey k) off v hg]
      exact ⟨k, rfl⟩
    | false =>
      rw [regWrite_stored s off v hg, regWrite_stored (s.setKey k) off v hg]
      exact storeSlot_setKey s k v _

theorem hostEvent_setKey (s : State) (k : TeaKey) (e : HostEvent) :
    ∃ k', hostEvent (s.setKey k) e = (hostEvent s e).setKey k' := by
  cases e with
  | access a => exact access_setKey s k a
  | reset d => exact ⟨s.doReset.key, rfl⟩
  | bus addr op =>
    rw [hostEvent, hostEvent]
    unfold busAccess
    split
    · exact access_setKey s k (.read _)
    · exact access_setKey s k (.write _ _)
    · exact ⟨k, rfl⟩

theorem effect_setKey {i : Instr} (h : i ∉ [Instr.teaEnc, .teaDec]) (s : State) (k : TeaKey) :
    effect i (s.setKey k) = (effect i s).setKey k := by
  cases i with
  | teaEnc | teaDec => exact absurd (by decide) h
  | _ => rfl

/-- A step that completes no TEA command carries a difference in the key to a difference in the key alone. -/
theorem step_setKey {s t : State} (henc : nextStep s ≠ .command .teaEnc) (hdec : nextStep s ≠ .command .teaDec)
    (h : step s = .next t) (k : TeaKey) : ∃ k', step (s.setKey k) = .next (t.setKey k') := by
  obtain ⟨i, -, hn, hstep⟩ | ⟨e, l, hs, -, hstep⟩ | ⟨-, hn, hstep⟩ := step_cases s
  · have hi : i ∉ [Instr.teaEnc, .teaDec] := by
      rw [hn] at henc hdec
      simpa using ⟨fun hi => henc (congrArg _ hi), fun hi => hdec (congrArg _ hi)⟩
    rw [hstep, exec_eq_next_iff] at h
    refine ⟨k, (step_of_command (s.setKey k) i hn).trans ?_⟩
    rw [exec_eq_next_iff, ← h]
    exact congrArg State.complete (effect_setKey hi s.advance k)
  · rw [hstep] at h
    cases h
    obtain ⟨k', he⟩ := hostEvent_setKey s.advance k e
    exact ⟨k', (step_host (s.setKey k) e l hs).trans (congrArg _ he)⟩
  · rw [hstep] at h
    cases h
    exact ⟨k, step_of_quiet (s.setKey k) hn⟩

/-- Settles O48: the other run's next state is this one's with a key of its own, and irq looks at CTRL and STATUS. -/
theorem keyIsUnobservableExceptThroughTea : Obligations.KeyIsUnobservableExceptThroughTea := by
  intro s t t' k henc hdec ht ht'
  obtain ⟨k', hstep⟩ := step_setKey henc hdec ht k
  cases hstep.symm.trans ht'
  exact ⟨rfl, rfl, fun _ => rfl⟩

end Sys2Proof.Machine

/-! ### The rest, fifth part: commands from their write to their completion (30_encoding.md sections 4 and 5) -/

namespace Sys2Proof.Machine

/-! #### Issue, polls and completion (R87 to R92) -/

/-- Settles O11: the decoded command is put in flight, and the engine's turn runs what is in flight. -/
theorem cmdWriteThenEngineRunsDecodedCommand : Obligations.CmdWriteThenEngineRunsDecodedCommand := by
  intro s off w i rest hoff hidle hw _ hs
  have hissue : regWrite { s with schedule := .engine :: rest, rdata := 0 } off w =
      State.accept { s with schedule := .engine :: rest, rdata := 0 } i := by
    rw [regWrite_cmd_of_idle hoff, issue_of_decode_ok hw]
    exact hidle
  refine ⟨_, (step_write hs).trans (congrArg _ hissue), rfl, ?_⟩
  rw [step_engine (i := i) (rest := rest)]
  · rfl
  · rfl
  · rfl

theorem step_hostR_status {s : State} {rest : List Turn} (hs : s.schedule = hostR .status :: rest) :
    step s = .next { s with schedule := rest, rdata := statusWord s.status } := by
  rw [step_read hs, regRead_status_slot rfl]
  rfl

/-- Polls of STATUS change `rdata` and the turns to come only, busy or not. -/
theorem run_status_polls (n : Nat) {s : State} {rest : List Turn}
    (hs : s.schedule = List.replicate n (hostR .status) ++ rest) :
    ∃ x : Word, run n s = .next { s with schedule := rest, rdata := x } := by
  induction n generalizing s with
  | zero =>
    have hrest : s.schedule = rest := hs
    exact ⟨s.rdata, by rw [← hrest]; rfl⟩
  | succ n ih =>
    rw [run_succ n (step_hostR_status hs)]
    exact ih rfl

theorem step_hostCmd {s : State} (hidle : s.status.busy = false) {i : Instr} {rest : List Turn}
    (hs : s.schedule = hostCmd i :: rest) :
    step s = .next (State.accept { s with schedule := rest, rdata := 0 } i) := by
  rw [step_write hs, regWrite_cmd_encode_of_idle rfl]
  exact hidle

theorem run_one (s : State) : run 1 s = step s := by
  rw [run_succ_eq]
  cases step s <;> rfl

/-- Settles O46: the write accepts, the polls change nothing the command reads, and the engine's turn completes. -/
theorem pollingDoesNotChangeTheResult : Obligations.PollingDoesNotChangeTheResult := by
  intro s i n rest hidle hs
  obtain ⟨x, hpolls⟩ := run_status_polls n (s := State.accept { s with
    schedule := List.replicate n (hostR .status) ++ .engine :: rest, rdata := 0 } i) rfl
  rw [run_succ (n + 1) (step_hostCmd hidle hs), run_add n 1 hpolls, run_one, step_engine (i := i) (rest := rest)]
  · rfl
  · rfl
  · rfl

/-! #### A message fed by commands (R129) -/

theorem effect_setRdata (i : Instr) (s : State) (x : Word) : effect i (s.setRdata x) = (effect i s).setRdata x := by
  cases i <;> rfl

theorem effect_setInflight (i : Instr) (s : State) (j : Option Instr) :
    effect i (s.setInflight j) = (effect i s).setInflight j := by
  cases i <;> rfl

/-- Acceptance leaves a command what it reads, and completion sets again what acceptance set. -/
theorem exec_accepted (i : Instr) (s : State) (l : List Turn) :
    exec i (((s.setSchedule l).setRdata 0).accept i) = .next (((effect i s).complete.setSchedule l).setRdata 0) := by
  rw [exec_eq_effect, State.accept, effect_setStatus, effect_setInflight, effect_setRdata, effect_setSchedule,
    State.complete, State.complete, effect_status]
  rfl

/-- `CMD MNEMONIC ; WAIT` from an idle state does what the command does, however many polls see BUSY = 1. -/
theorem run_hostCommand {s : State} (hidle : s.status.busy = false) {i : Instr} {polls : Nat} {rest : List Turn}
    (hs : s.schedule = hostCommand i polls ++ rest) :
    ∃ x : Word, run (hostCommand i polls).length s =
      .next (((effect i s).complete.setSchedule rest).setRdata x) := by
  have hpolled : s.schedule =
      hostCmd i :: (List.replicate polls (hostR .status) ++ .engine :: hostR .status :: rest) := by
    rw [hs, hostCommand, hostWait, List.cons_append, List.append_assoc]
    rfl
  have hlength : (hostCommand i polls).length = polls + 2 + 1 := by
    simp [hostCommand, hostWait]
  have hcompleted : run (polls + 2) s = .next _ :=
    (pollingDoesNotChangeTheResult s i polls _ hidle hpolled).trans (exec_accepted i s (hostR .status :: rest))
  rw [hlength, run_add (polls + 2) 1 hcompleted, run_one, step_hostR_status rfl]
  exact ⟨_, rfl⟩

theorem run_hostCrc8 {s : State} (hidle : s.status.busy = false) {b : Byte} {polls : Nat} {rest : List Turn}
    (hs : s.schedule = hostCrc8 (b.setWidth 32) polls ++ rest) :
    ∃ x : Word, run (hostCrc8 (b.setWidth 32) polls).length s = .next { s with
      arg := b.setWidth 32, acc := fold s.acc b, status := statusCompleted s.status, inflight := none
      schedule := rest, rdata := x } := by
  have hwrite : step s = .next { s with
      schedule := hostCommand .crcUpd8 polls ++ rest, rdata := 0, arg := b.setWidth 32 } := by
    rw [step_write hs, regWrite_of_idle]
    · rfl
    · exact hidle
  have hbyte : argByte0 (b.setWidth 32) = b :=
    (BitVec.extractLsb'_setWidth_of_le (by decide)).trans BitVec.extractLsb'_eq_self
  obtain ⟨x, hrun⟩ := run_hostCommand (s := { s with
    schedule := hostCommand .crcUpd8 polls ++ rest, rdata := 0, arg := b.setWidth 32 }) hidle rfl
  refine ⟨x, ?_⟩
  rw [hostCrc8, List.length_cons, run_succ _ hwrite, hrun, effect, foldBytes_cons, foldBytes_nil, hbyte]
  rfl

/-- Bytes fed to a block that has completed a command leave it so, with the bytes folded into ACC. -/
theorem run_hostFeed (m : List (Byte × Nat)) {s : State} {rest : List Turn}
    (hstatus : s.status = statusCompleted s.status) (hinflight : s.inflight = none)
    (hs : s.schedule = hostFeed m ++ rest) :
    ∃ x a : Word, run (hostFeed m).length s = .next { s with
      arg := a, acc := foldBytes s.acc (m.map Prod.fst), schedule := rest, rdata := x } := by
  induction m generalizing s with
  | nil =>
    have hrest : s.schedule = rest := hs
    exact ⟨s.rdata, s.arg, by rw [← hrest]; rfl⟩
  | cons p m ih =>
    obtain ⟨b, polls⟩ := p
    have hbyte : s.schedule = hostCrc8 (b.setWidth 32) polls ++ (hostFeed m ++ rest) := by
      rw [hs, hostFeed, List.append_assoc]
    obtain ⟨x, hrun⟩ := run_hostCrc8 (by rw [hstatus]; rfl) hbyte
    rw [← hstatus, ← hinflight] at hrun
    rw [hostFeed, List.length_append, run_add _ _ hrun]
    exact ih hstatus hinflight rfl

/-- Settles O28: CRC_INIT leaves the initial value and a completed block, and the bytes are folded in one by one. -/
theorem byteCommandsComputeTheMessageCrc : Obligations.ByteCommandsComputeTheMessageCrc := by
  intro s p m rest hidle _ hs
  rw [List.append_assoc] at hs
  obtain ⟨x, hinit⟩ := run_hostCommand hidle hs
  obtain ⟨y, a, hfeed⟩ := run_hostFeed m rfl rfl
    (s := ((effect .crcInit s).complete.setSchedule (hostFeed m ++ rest)).setRdata x) rfl
  rw [List.length_append, run_add _ _ hinit]
  exact ⟨_, hfeed, rfl, rfl, rfl, rfl, rfl, rfl, rfl, rfl⟩

end Sys2Proof.Machine
